-- ==== Sys2Proof/Word.lean ====
section
/-!
DEFINITION. The widths of 00_scope.md R8 and R9, as names of bit vectors. All values are unsigned
(R13). A vector of length n held in a register has position p at register bit n - p (R12), so
position 1 is the most significant bit.
-/
namespace Sys2Proof

/-- A command word, CMD_W = 32 bits (R9, R76). -/
abbrev CmdWord := BitVec 32

/-- A host transaction HT, 81 bits (R75, R86). -/
abbrev Ht := BitVec 81

/-- A register index on the host port, IDX_W = 8 bits (R9, R21). -/
abbrev RegIdx := BitVec 8

/-- A length tag, LEN_W = 8 bits (R9, R22). -/
abbrev LenTag := BitVec 8

/-- The data part of a vector register, VEC_MAX = 64 bits (R9, R22). -/
abbrev Data := BitVec 64

/-- A block or a master key, 64 bits (BLOCK_W, KEY_W of R8). -/
abbrev Block := BitVec 64

/-- A half block, HALF_W = 32 bits (R8). -/
abbrev Half := BitVec 32

/-- A half of the permuted key, CD_W = 28 bits (R8). -/
abbrev KeyHalf := BitVec 28

/-- A round key, RK_W = 48 bits (R8). -/
abbrev RoundKey := BitVec 48

end Sys2Proof
end

