-- ==== Sys2Proof/Config.lean ====
section
/-!
DEFINITION. What the spec leaves open, as constants with no body. Nothing in Lean can evaluate
them, so a theorem about them holds whatever they are. The fixed parameters of 00_scope.md R8 and R9
are the widths of Word.lean; T_STEP and N_INSTANCES (R10) are left out of the model (log entry 9).
-/
namespace Sys2Proof

/-- FREE VALUE (R17, R250, R252; U4 of 93_implementation_defined.md; log entry 3). How many steps the
host takes, at most, between two engine steps while both agents have a step. The argument counts the
engine steps (and resets) taken so far, so each draw is fresh. Every number is finite, which is the
spec's only fairness assumption: an enabled engine step is eventually taken. -/
opaque Config.pollsBefore : Nat → Nat

/-- FREE VALUE (R95, R22; log entry 11). What RDHEX shows for a register whose length tag is above
64: such a register holds no vector, and the spec states no text for it. -/
opaque Config.overlongHex : LenTag → Data → List Char

end Sys2Proof
end

