-- ==== Sys2Proof/Syntax.lean ====
section
/-!
DEFINITION. The instruction set: one constructor of `Instr` for each row of spec/opcode_table.json,
with the names the spec gives its operands.
-/
namespace Sys2Proof

/-- The key slot operand k of KSCHED, DES.ENC and DES.DEC; KSEL = 0, 1, 2 (30_encoding.md R76, R79). -/
inductive KeySlot
  | k1
  | k2
  | k3
  deriving DecidableEq, Repr

/-- The table of a PERM command; TSEL = 0 to 6 (R76, R79). `fp` is the source's IP⁻¹. -/
inductive TableSel
  | custom
  | ip
  | fp
  | e
  | p
  | pc1
  | pc2
  deriving DecidableEq, Repr

/-- The source's `direction: Encrypt|Decrypt`; DIR = 0, 1 (R76, R79). -/
inductive Dir
  | encrypt
  | decrypt
  deriving DecidableEq, Repr

/-- The host-visible registers of 10_state.md R21. `rk i` is RK[i + 1], `tbl j` is TBL[j]. -/
inductive Reg
  | cmd
  | status
  | opa
  | opb
  | key1
  | key2
  | key3
  | res
  | tblLen
  | rk (i : Fin 16)
  | tbl (j : Fin 64)
  deriving DecidableEq, Repr

/-- The instruction set (30_encoding.md R80, R86, R94). The fifteen command mnemonics each stand for
the command word of R80; `wr` and `rd` are the two bus operations. -/
inductive Instr
  | permCustom
  | permIp
  | permFp
  | permE
  | permP
  | permPc1
  | permPc2
  | ksched (k : KeySlot)
  | feistel
  | desEnc (k : KeySlot)
  | desDec (k : KeySlot)
  | tdes2Enc
  | tdes2Dec
  | tdes3Enc
  | tdes3Dec
  | wr (idx : RegIdx) (len : LenTag) (data : Data)
  | rd (idx : RegIdx)
  deriving DecidableEq, Repr

/-- The two formats of R75. A decoder tells them apart by where they occur, never by their bits. -/
inductive Encoding
  | cw (w : CmdWord)
  | ht (w : Ht)
  deriving DecidableEq, Repr

/-- Why a command word decodes to `Illegal` (R81, R84), by name. -/
inductive Reject
  /-- one of bits 31:11 is set -/
  | zeroField
  /-- OP is 0 or 6 to 15 -/
  | reservedOp
  /-- a field the operation does not use is not 0 (R78) -/
  | unusedField
  /-- KSEL = 3 -/
  | reservedKsel
  /-- TSEL = 7 -/
  | reservedTsel
  deriving DecidableEq, Repr

end Sys2Proof
end

