-- ==== Sys2Proof/WellFormed.lean ====
section
/-!
DEFINITION. Which instructions the spec gives a meaning. Command words are typed, so the one check
is on the register index of a transaction: 45_host_transfers.md R198 gives a transaction at a
reserved index no meaning.
-/
namespace Sys2Proof

/-- The reserved register indices, range by range as R21 and R198 list them. -/
def reservedIndex (idx : RegIdx) : Bool :=
  (0x09 ≤ idx.toNat && idx.toNat ≤ 0x0F) ||
  (0x20 ≤ idx.toNat && idx.toNat ≤ 0x3F) ||
  (0x80 ≤ idx.toNat && idx.toNat ≤ 0xFF)

/-- An instruction the spec gives a meaning: every command, and a transaction at a mapped index. -/
def WellFormed : Instr → Bool
  | .permCustom => true
  | .permIp => true
  | .permFp => true
  | .permE => true
  | .permP => true
  | .permPc1 => true
  | .permPc2 => true
  | .ksched _ => true
  | .feistel => true
  | .desEnc _ => true
  | .desDec _ => true
  | .tdes2Enc => true
  | .tdes2Dec => true
  | .tdes3Enc => true
  | .tdes3Dec => true
  | .wr idx _ _ => !reservedIndex idx
  | .rd idx => !reservedIndex idx

end Sys2Proof
end

