-- ==== Sys2Proof/Decode.lean ====
section
/-!
DEFINITION. The decoder and, after it, the encoder of 30_encoding.md. Decoding a command word is
total: one of the fifteen commands, or a rejection by name (R81). Every 81-bit word is a well-formed
host transaction (R86).
-/
namespace Sys2Proof

/-! ### The fields of a command word (R76) -/

/-- OP, bits 3:0. -/
def cwOp (w : CmdWord) : BitVec 4 := w.extractLsb' 0 4

/-- DIR, bit 4. -/
def cwDir (w : CmdWord) : BitVec 1 := w.extractLsb' 4 1

/-- K3EN, bit 5. -/
def cwK3en (w : CmdWord) : BitVec 1 := w.extractLsb' 5 1

/-- KSEL, bits 7:6. -/
def cwKsel (w : CmdWord) : BitVec 2 := w.extractLsb' 6 2

/-- TSEL, bits 10:8. -/
def cwTsel (w : CmdWord) : BitVec 3 := w.extractLsb' 8 3

/-- ZERO, bits 31:11. -/
def cwZero (w : CmdWord) : BitVec 21 := w.extractLsb' 11 21

/-- KSEL names a key slot; 3 is reserved (R76, R79). -/
def kselSlot (ksel : BitVec 2) : Option KeySlot :=
  match ksel.toNat with
  | 0 => some .k1
  | 1 => some .k2
  | 2 => some .k3
  | _ => none

/-- TSEL names a table; 7 is reserved (R76, R79). -/
def tselTable (tsel : BitVec 3) : Option TableSel :=
  match tsel.toNat with
  | 0 => some .custom
  | 1 => some .ip
  | 2 => some .fp
  | 3 => some .e
  | 4 => some .p
  | 5 => some .pc1
  | 6 => some .pc2
  | _ => none

/-- DIR names a direction (R76). -/
def dirOf (d : BitVec 1) : Dir := if d = 0 then .encrypt else .decrypt

/-- The PERM command of a table (R80). -/
def permInstr : TableSel → Instr
  | .custom => .permCustom
  | .ip => .permIp
  | .fp => .permFp
  | .e => .permE
  | .p => .permP
  | .pc1 => .permPc1
  | .pc2 => .permPc2

/-- The DES command of a direction and slot (R80). -/
def desInstr : Dir → KeySlot → Instr
  | .encrypt, k => .desEnc k
  | .decrypt, k => .desDec k

/-- The TDES command of a direction and of K3EN (R80). -/
def tdesInstr (d : Dir) (k3en : BitVec 1) : Instr :=
  match d with
  | .encrypt => if k3en = 0 then .tdes2Enc else .tdes3Enc
  | .decrypt => if k3en = 0 then .tdes2Dec else .tdes3Dec

/-- `decode` of R81, with the reason of R84 where the word is Illegal. -/
def decodeCommand (w : CmdWord) : Except Reject Instr :=
  if cwZero w ≠ 0 then .error .zeroField
  else
    match (cwOp w).toNat with
    | 1 =>
      if cwDir w ≠ 0 ∨ cwK3en w ≠ 0 ∨ cwKsel w ≠ 0 then .error .unusedField
      else
        match tselTable (cwTsel w) with
        | none => .error .reservedTsel
        | some t => .ok (permInstr t)
    | 2 =>
      if cwDir w ≠ 0 ∨ cwK3en w ≠ 0 ∨ cwTsel w ≠ 0 then .error .unusedField
      else
        match kselSlot (cwKsel w) with
        | none => .error .reservedKsel
        | some k => .ok (.ksched k)
    | 3 =>
      if cwDir w ≠ 0 ∨ cwK3en w ≠ 0 ∨ cwKsel w ≠ 0 ∨ cwTsel w ≠ 0 then .error .unusedField
      else .ok .feistel
    | 4 =>
      if cwK3en w ≠ 0 ∨ cwTsel w ≠ 0 then .error .unusedField
      else
        match kselSlot (cwKsel w) with
        | none => .error .reservedKsel
        | some k => .ok (desInstr (dirOf (cwDir w)) k)
    | 5 =>
      if cwKsel w ≠ 0 ∨ cwTsel w ≠ 0 then .error .unusedField
      else .ok (tdesInstr (dirOf (cwDir w)) (cwK3en w))
    | _ => .error .reservedOp

/-- A host transaction (R86): WE in bit 80, IDX in 79:72, LEN in 71:64, DATA in 63:0. LEN and DATA of
a read are ignored. -/
def decodeHt (w : Ht) : Instr :=
  if w.getLsbD 80 then .wr (w.extractLsb' 72 8) (w.extractLsb' 64 8) (w.extractLsb' 0 64)
  else .rd (w.extractLsb' 72 8)

/-- The decoder over both formats (R75). -/
def decode : Encoding → Except Reject Instr
  | .cw w => decodeCommand w
  | .ht w => .ok (decodeHt w)

/-! ### The register map (10_state.md R21) -/

/-- The register at an index, none where the index is reserved. -/
def regAt (idx : RegIdx) : Option Reg :=
  match idx.toNat with
  | 0x00 => some .cmd
  | 0x01 => some .status
  | 0x02 => some .opa
  | 0x03 => some .opb
  | 0x04 => some .key1
  | 0x05 => some .key2
  | 0x06 => some .key3
  | 0x07 => some .res
  | 0x08 => some .tblLen
  | n =>
    if 0x10 ≤ n ∧ n ≤ 0x1F then some (.rk (Fin.ofNat 16 (n - 0x10)))
    else if 0x40 ≤ n ∧ n ≤ 0x7F then some (.tbl (Fin.ofNat 64 (n - 0x40)))
    else none

/-- The index of a register. -/
def regIdx : Reg → RegIdx
  | .cmd => 0x00
  | .status => 0x01
  | .opa => 0x02
  | .opb => 0x03
  | .key1 => 0x04
  | .key2 => 0x05
  | .key3 => 0x06
  | .res => 0x07
  | .tblLen => 0x08
  | .rk i => BitVec.ofNat 8 (0x10 + i.val)
  | .tbl j => BitVec.ofNat 8 (0x40 + j.val)

/-! ### The encoder -/

/-- A command word from its fields (R76), ZERO = 0. -/
def cwOf (op : BitVec 4) (dir k3en : BitVec 1) (ksel : BitVec 2) (tsel : BitVec 3) : CmdWord :=
  0#21 ++ tsel ++ ksel ++ k3en ++ dir ++ op

/-- KSEL of a slot: k - 1 (R92). -/
def slotKsel : KeySlot → BitVec 2
  | .k1 => 0
  | .k2 => 1
  | .k3 => 2

/-- A host transaction from its fields (R86). -/
def htOf (we : BitVec 1) (idx : RegIdx) (len : LenTag) (data : Data) : Ht :=
  we ++ idx ++ len ++ data

/-- The words of an instruction: the command word of R80, or the transaction of R86. A read is
assembled with LEN = 0 and DATA = 0 (R94). -/
def encode : Instr → Encoding
  | .permCustom => .cw (cwOf 1 0 0 0 0)
  | .permIp => .cw (cwOf 1 0 0 0 1)
  | .permFp => .cw (cwOf 1 0 0 0 2)
  | .permE => .cw (cwOf 1 0 0 0 3)
  | .permP => .cw (cwOf 1 0 0 0 4)
  | .permPc1 => .cw (cwOf 1 0 0 0 5)
  | .permPc2 => .cw (cwOf 1 0 0 0 6)
  | .ksched k => .cw (cwOf 2 0 0 (slotKsel k) 0)
  | .feistel => .cw (cwOf 3 0 0 0 0)
  | .desEnc k => .cw (cwOf 4 0 0 (slotKsel k) 0)
  | .desDec k => .cw (cwOf 4 1 0 (slotKsel k) 0)
  | .tdes2Enc => .cw (cwOf 5 0 0 0 0)
  | .tdes2Dec => .cw (cwOf 5 1 0 0 0)
  | .tdes3Enc => .cw (cwOf 5 0 1 0 0)
  | .tdes3Dec => .cw (cwOf 5 1 1 0 0)
  | .wr idx len data => .ht (htOf 1 idx len data)
  | .rd idx => .ht (htOf 0 idx 0 0)

/-- The transaction that writes a command word to CMD: `WR CMD, 0, w` (R94). -/
def cmdWrite (w : CmdWord) : Ht := htOf 1 0x00 0 (w.setWidth 64)

/-- What the host puts on its port for an instruction: a command mnemonic is itself a
pseudo-instruction for one WR of CMD (R94). -/
def transactionOf (i : Instr) : Ht :=
  match encode i with
  | .cw w => cmdWrite w
  | .ht w => w

/-- The port word of a raw encoding: a command word reaches the engine inside the transaction that
writes it to CMD (R75). -/
def portWord : Encoding → Ht
  | .cw w => cmdWrite w
  | .ht w => w

/-- The format of a table row of `nbits` bits: rows of at most 32 bits are command words, longer
rows host transactions (log entry 14). None where bits above the format's width are set. -/
def tableEncoding (nbits w : Nat) : Option Encoding :=
  if nbits ≤ 32 then
    if w < 2 ^ 32 then some (.cw (BitVec.ofNat 32 w)) else none
  else if w < 2 ^ 81 then some (.ht (BitVec.ofNat 81 w)) else none

/-- The instruction the decoder reads from a table row's word. -/
def decodeTableWord (nbits w : Nat) : Option Instr :=
  match tableEncoding nbits w with
  | none => none
  | some e => (decode e).toOption

end Sys2Proof
end

