-- ==== Sys2Proof/Machine/State.lean ====
section
/-!
DEFINITION. The machine's state (10_state.md R20), its reset value (R39), and the reasons a step can
stop. The last four fields of State are the model's own: the host agent's remaining program, what
its reads returned, and the counters of the free schedule (log entries 2, 3, 4).
-/
namespace Sys2Proof.Machine

/-- A vector register (R22): the declared length in bits and 64 data bits. -/
structure VecReg where
  len : LenTag
  bits : Data
  deriving DecidableEq, Repr

/-- PHASE (R30). The codes are 0 to 5 in this order; 6 and 7 never occur. -/
inductive Phase
  | idle
  | init
  | permuted
  | round
  | swapped
  | final
  deriving DecidableEq, Repr

/-- The error codes of 60_exceptions.md R210, 0 to 6 in this order. Codes 3 and 4 belong to the
host-side conversion and never reach STATUS.ERR (R211). -/
inductive ErrCode
  | none
  | invalidBlockLength
  | invalidKeyLength
  | invalidHexLength
  | invalidHexDigit
  | invalidTableIndex
  | illegalCommand
  deriving DecidableEq, Repr

/-- What a read returns (45_host_transfers.md R190, R197). -/
structure Response where
  rlen : LenTag
  rdata : Data
  deriving DecidableEq, Repr

/-- One item of what comes to the engine from outside, in the order it comes (00_scope.md R17). -/
inductive HostEvent
  /-- a host transaction (R86, R190) -/
  | xfer (ht : Ht)
  /-- WAIT: read STATUS until BUSY is 0 (30_encoding.md R95) -/
  | wait
  /-- reset asserted (70_reset_and_hazards.md R240) -/
  | reset
  deriving DecidableEq, Repr

/-- The state. Every field down to `blk` is an element of R20. -/
structure State where
  opa : VecReg
  opb : VecReg
  key1 : VecReg
  key2 : VecReg
  key3 : VecReg
  res : VecReg
  /-- the round key store; entry i - 1 is RK[i] (R27) -/
  rk : Vector RoundKey 16
  /-- the custom table RAM (R28) -/
  tbl : Vector (BitVec 8) 64
  tblLen : BitVec 8
  cmd : CmdWord
  busy : Bool
  resValid : Bool
  rkValid : Bool
  err : ErrCode
  phase : Phase
  round : BitVec 5
  stage : BitVec 2
  l : Half
  r : Half
  blk : Block
  /-- MODEL'S OWN: what is still to come from the host and from reset, first item first (log entry 2) -/
  inputs : List HostEvent
  /-- MODEL'S OWN: what the host's reads returned, newest first (log entry 4) -/
  received : List Response
  /-- MODEL'S OWN: index of the next draw of `Config.pollsBefore` (log entry 3) -/
  turn : Nat
  /-- MODEL'S OWN: host steps taken since the last engine step while BUSY = 1 (log entry 3) -/
  polls : Nat
  deriving DecidableEq, Repr

/-- Why the machine can stop with a fault. No reachable state stops so (R19, R212; log entry 6). -/
inductive Fault
  /-- raised by `engineStep` where BUSY = 1 but no engine rule is enabled. Safe: the spec has no
  step there, and no run reaches such a state (R38). -/
  | noEngineStep
  /-- raised by an engine step whose operand would not pass the validation its command passed at
  acceptance. Safe: the operands cannot change while BUSY = 1 (R195), so no run reaches it. -/
  | unvalidatedOperand
  deriving DecidableEq, Repr

/-- Why an instruction can be refused. -/
inductive Refusal
  /-- raised by no arm of `exec`: every instruction has its meaning. Safe. -/
  | notModelled (mnemonic : String)
  /-- raised by `execWr` and `execRd` at a reserved register index, which the spec gives no meaning
  and says a model must refuse (R198, U3). Safe. -/
  | reservedIndex (idx : RegIdx)
  deriving DecidableEq, Repr

/-- The outcome of a step of this machine. -/
abbrev Out := Host.Outcome State Fault Refusal

/-- A vector register after reset (R39). -/
def VecReg.zero : VecReg := ⟨0, 0⟩

/-- The state after reset: every element of R20 is zero, PHASE is IDLE (R39, R240). The four fields
of the model's own are empty or 0 (DESIGN CHOICE, log entries 2, 3, 4). -/
def State.reset : State where
  opa := .zero
  opb := .zero
  key1 := .zero
  key2 := .zero
  key3 := .zero
  res := .zero
  rk := Vector.replicate 16 0
  tbl := Vector.replicate 64 0
  tblLen := 0
  cmd := 0
  busy := false
  resValid := false
  rkValid := false
  err := .none
  phase := .idle
  round := 0
  stage := 0
  l := 0
  r := 0
  blk := 0
  inputs := []
  received := []
  turn := 0
  polls := 0

end Sys2Proof.Machine
end

