-- ==== Sys2Proof/Machine/Flags.lean ====
section
/-!
DEFINITION. The STATUS word and its fields (10_state.md R31). There are no arithmetic condition codes
(R32): BUSY, RES_VALID, RK_VALID and ERR are written by the operations of Ops.lean and the engine's
steps, and read here.
-/
namespace Sys2Proof.Machine

/-- The number of an error code (60_exceptions.md R210). -/
def errNumber : ErrCode → BitVec 4
  | .none => 0
  | .invalidBlockLength => 1
  | .invalidKeyLength => 2
  | .invalidHexLength => 3
  | .invalidHexDigit => 4
  | .invalidTableIndex => 5
  | .illegalCommand => 6

/-- The error code of a number; 7 to 15 are reserved (R210). -/
def errNamed (c : BitVec 4) : Option ErrCode :=
  match c.toNat with
  | 0 => some .none
  | 1 => some .invalidBlockLength
  | 2 => some .invalidKeyLength
  | 3 => some .invalidHexLength
  | 4 => some .invalidHexDigit
  | 5 => some .invalidTableIndex
  | 6 => some .illegalCommand
  | _ => Option.none

/-- The code of a phase (R30). -/
def phaseNumber : Phase → BitVec 3
  | .idle => 0
  | .init => 1
  | .permuted => 2
  | .round => 3
  | .swapped => 4
  | .final => 5

/-- STATUS (R31): STAGE 17:16, ROUND 15:11, PHASE 10:8, ERR 7:4, bit 3 zero, RK_VALID 2,
RES_VALID 1, BUSY 0, bits 31:18 zero. -/
def statusWord (s : State) : BitVec 32 :=
  0#14 ++ s.stage ++ s.round ++ phaseNumber s.phase ++ errNumber s.err ++ 0#1 ++
    BitVec.ofBool s.rkValid ++ BitVec.ofBool s.resValid ++ BitVec.ofBool s.busy

end Sys2Proof.Machine
end

