-- ==== Sys2Proof/Machine/Bits.lean ====
section
/-!
DEFINITION. Bit vectors as the spec numbers them (00_scope.md R11, R13): index j is 0-based from the
left, position p is 1-based from the left, and the first bit is the most significant.
-/
namespace Sys2Proof.Machine

/-- `v.idx(j)`: the bit at 0-based index j from the left. -/
def idx {n : Nat} (v : BitVec n) (j : Nat) : Bool := v.getMsbD j

/-- `v.pos(p)`: the bit at 1-based position p from the left. -/
def pos {n : Nat} (v : BitVec n) (p : Nat) : Bool := idx v (p - 1)

/-- The vector of length m whose bit at index j is `f j`. -/
def ofIdx : (m : Nat) → (Nat → Bool) → BitVec m
  | 0, _ => 0#0
  | m + 1, f => (ofIdx m f).concat (f m)

/-- `rotl(v, s)` on the 28-bit halves of the key: every bit moves s positions toward position 1. -/
def rotl (v : KeyHalf) (s : Nat) : KeyHalf := v.rotateLeft s

/-- `v.first(32)` of a block: positions 1 to 32. -/
def firstHalf (v : Block) : Half := v.extractLsb' 32 32

/-- `v.last(32)` of a block: positions 33 to 64. -/
def lastHalf (v : Block) : Half := v.extractLsb' 0 32

/-- The vector of length `len` that a register's data bits hold, right-aligned (R12). -/
def held (bits : Data) (len : Nat) : BitVec len := bits.setWidth len

end Sys2Proof.Machine
end

