-- ==== Sys2Proof/Machine/Permute.lean ====
section
/-!
DEFINITION. The bit permutation engine's function `permute` (40_permutation_engine.md R100).
-/
namespace Sys2Proof.Machine

/-- The check of R100: every entry is at least 1 and at most the input length. -/
def tableFits (t : Table) (n : Nat) : Bool := t.all fun k => decide (1 ≤ k) && decide (k ≤ n)

/-- The output of R100 for a table of length m: `out.idx(i) = input.idx(table[i] - 1)`. -/
def gather {n : Nat} (m : Nat) (t : Table) (v : BitVec n) : BitVec m :=
  ofIdx m fun i => pos v (t.getD i 0)

/-- `permute(input, table)` of R100; the table's length is the output width. -/
def permute {n : Nat} (v : BitVec n) (t : Table) : Except ErrCode (BitVec t.length) :=
  if tableFits t n then .ok (gather t.length t v) else .error .invalidTableIndex

end Sys2Proof.Machine
end

