-- ==== Sys2Proof/Machine/Operands.lean ====
section
/-!
DEFINITION. Operand assembly (30_encoding.md R79): vector registers, key slots and tables. There are
no immediates and nothing is scaled, shifted or sign-extended.
-/
namespace Sys2Proof.Machine

/-- What a WR of a vector register stores (45_host_transfers.md R192): for LEN ≤ 64 the bits at and
above LEN are cleared, for LEN > 64 the data is kept as written. -/
def vecOf (len : LenTag) (data : Data) : VecReg :=
  if len.toNat ≤ 64 then ⟨len, (held data len.toNat).setWidth 64⟩ else ⟨len, data⟩

/-- A vector register that holds an n-bit vector the engine produced, `zext_64` (R12, R22). -/
def vecReg {n : Nat} (v : BitVec n) : VecReg := ⟨BitVec.ofNat 8 n, v.setWidth 64⟩

/-- `keyslot(k)` (R79). -/
def keyslot (s : State) : KeySlot → VecReg
  | .k1 => s.key1
  | .k2 => s.key2
  | .k3 => s.key3

/-- `table(T)` (R79): the first TBL_LEN entries of TBL for CUSTOM, else the ROM table. -/
def tableOf (s : State) : TableSel → Table
  | .custom => (s.tbl.toList.take s.tblLen.toNat).map BitVec.toNat
  | .ip => ipTable
  | .fp => fpTable
  | .e => eTable
  | .p => pTable
  | .pc1 => pc1Table
  | .pc2 => pc2Table

/-- RK[i] of a round key store, i = 1..16 (10_state.md R27); there is no other entry. -/
def rkAt (rk : Vector RoundKey 16) (i : Nat) : Option RoundKey :=
  if i = 0 then none else rk[i - 1]?

/-- The place in natural order of the round key of round i: i, or 17 - i in decryption
(43_des_engine.md R156). -/
def rkIndex : Dir → Nat → Nat
  | .encrypt, i => i
  | .decrypt, i => 17 - i

/-- The opposite direction (44_tdes_composer.md R177). -/
def opposite : Dir → Dir
  | .encrypt => .decrypt
  | .decrypt => .encrypt

end Sys2Proof.Machine
end

