-- ==== Sys2Proof/Machine/Ops.lean ====
section
/-!
DEFINITION. The shared operations over State: reading and writing a register by index, holding a
transaction while the engine is busy, accepting a command, and raising an error.

There is no memory beside the registers (20_memory.md R50) and no exception return: the next write
to CMD is decoded and validated on its own (60_exceptions.md R224), so nothing is restored.
-/
namespace Sys2Proof.Machine

/-! ### Registers -/

/-- What a read of a register returns (45_host_transfers.md R197). -/
def readReg (s : State) : Reg → Response
  | .cmd => ⟨0, s.cmd.setWidth 64⟩
  | .status => ⟨0, (statusWord s).setWidth 64⟩
  | .opa => ⟨s.opa.len, s.opa.bits⟩
  | .opb => ⟨s.opb.len, s.opb.bits⟩
  | .key1 => ⟨s.key1.len, s.key1.bits⟩
  | .key2 => ⟨s.key2.len, s.key2.bits⟩
  | .key3 => ⟨s.key3.len, s.key3.bits⟩
  | .res => ⟨s.res.len, s.res.bits⟩
  | .tblLen => ⟨0, s.tblLen.setWidth 64⟩
  | .rk i => ⟨48, s.rk[i].setWidth 64⟩
  | .tbl j => ⟨0, s.tbl[j].setWidth 64⟩

/-- The effect of a WR on a register that is not CMD (R191, R192, R199). STATUS, RES and RK ignore
it; a write of CMD is a command and is not here (R194). -/
def storeReg (len : LenTag) (data : Data) (s : State) : Reg → State
  | .cmd => s
  | .status => s
  | .opa => { s with opa := vecOf len data }
  | .opb => { s with opb := vecOf len data }
  | .key1 => { s with key1 := vecOf len data }
  | .key2 => { s with key2 := vecOf len data }
  | .key3 => { s with key3 := vecOf len data }
  | .res => s
  | .tblLen => { s with tblLen := data.setWidth 8 }
  | .rk _ => s
  | .tbl j => { s with tbl := s.tbl.set j (data.setWidth 8) }

/-- The host gets a response (R190). -/
def respond (s : State) (x : Response) : State := { s with received := x :: s.received }

/-! ### Holding (45_host_transfers.md R195) -/

/-- A transaction other than a read of STATUS has its effect only when BUSY = 0. While BUSY = 1 it
waits, without effect: the state is unchanged (log entry 5). -/
def whenFree (s : State) (effect : Out) : Out := if s.busy then .next s else effect

/-! ### Commands -/

/-- What every write to CMD does first (R194): CMD holds the word, RES_VALID is 0. -/
def takeWord (w : CmdWord) (s : State) : State := { s with cmd := w, resValid := false }

/-- `raise E` (60_exceptions.md R213), the engine's whole trap entry: five writes; CMD already holds
the offending word, nothing else changes, and no control is transferred anywhere. -/
def raise (e : ErrCode) (s : State) : State :=
  { s with
    err := e
    resValid := false
    busy := false
    phase := .idle
    round := 0
    stage := 0 }

/-- The acceptance of PERM, KSCHED and FEISTEL (R194, R110, R128, R144): STAGE is 0. -/
def accept (s : State) : State :=
  { s with
    err := .none
    busy := true
    phase := .init
    round := 0
    stage := 0 }

/-- The acceptance of DES and TDES (R194, R158, R178): STAGE is 1 and BLK takes the block. -/
def acceptBlock (s : State) : State :=
  { s with
    err := .none
    busy := true
    phase := .init
    round := 0
    stage := 1
    blk := s.opa.bits }

/-- A write of the command word w to CMD (R194), one atomic step: held while BUSY = 1; the word is
stored; the command's validation then decides between `raise` and acceptance. -/
def command (w : CmdWord) (validate : State → Option ErrCode) (accepted : State → State)
    (s : State) : Out :=
  whenFree s <|
    match validate (takeWord w s) with
    | some e => .next (raise e (takeWord w s))
    | none => .next (accepted (takeWord w s))

/-- A write to CMD of a word that decodes to Illegal (R84, R219): stored, and completed at once with
IllegalCommand. -/
def illegalCommand (w : CmdWord) (s : State) : Out :=
  command w (fun _ => some .illegalCommand) id s

/-- RES takes a result and the command completes (R110, R144, R163). -/
def complete (x : VecReg) (s : State) : State :=
  { s with
    res := x
    resValid := true
    phase := .final
    busy := false }

/-- RK takes a whole key schedule in one step (10_state.md R27, R56). -/
def storeSchedule (rk : Vector RoundKey 16) (s : State) : State :=
  { s with rk := rk, rkValid := true }

end Sys2Proof.Machine
end

