-- ==== Sys2Proof/Machine/Perm.lean ====
section
/-!
DEFINITION. The seven PERM commands (40_permutation_engine.md R109, R110, R111): validation at
acceptance, one meaning for each command, and the one execute step they share.
-/
namespace Sys2Proof.Machine

/-- The word an instruction leaves in CMD when a mnemonic is run (30_encoding.md R94); the encoding
of a transaction is no command word and gives 0. -/
def wordOf (i : Instr) : CmdWord :=
  match encode i with
  | .cw w => w
  | .ht _ => 0

/-- `validate_PERM` (R109): the checks in order, the first that fails decides the code. -/
def validatePerm (t : TableSel) (s : State) : Option ErrCode :=
  if t = .custom ∧ 64 < s.tblLen.toNat then some .illegalCommand
  else if 64 < s.opa.len.toNat then some .invalidBlockLength
  else if tableFits (tableOf s t) s.opa.len.toNat then none
  else some .invalidTableIndex

/-- PERM.CUSTOM: the host-loaded table (R110). -/
def execPermCustom (s : State) : Out := command (wordOf .permCustom) (validatePerm .custom) accept s

/-- PERM.IP (R110). -/
def execPermIp (s : State) : Out := command (wordOf .permIp) (validatePerm .ip) accept s

/-- PERM.FP (R110). -/
def execPermFp (s : State) : Out := command (wordOf .permFp) (validatePerm .fp) accept s

/-- PERM.E (R110). -/
def execPermE (s : State) : Out := command (wordOf .permE) (validatePerm .e) accept s

/-- PERM.P (R110). -/
def execPermP (s : State) : Out := command (wordOf .permP) (validatePerm .p) accept s

/-- PERM.PC1 (R110). -/
def execPermPc1 (s : State) : Out := command (wordOf .permPc1) (validatePerm .pc1) accept s

/-- PERM.PC2 (R110). -/
def execPermPc2 (s : State) : Out := command (wordOf .permPc2) (validatePerm .pc2) accept s

/-- The vector of length OPA.len held in OPA, permuted by a table (R110). -/
def permResult (t : Table) (s : State) : Except ErrCode VecReg :=
  (permute (held s.opa.bits s.opa.len.toNat) t).map vecReg

/-- `step_PERM` (R110), with the table CMD.TSEL names. It cannot raise after R109 has passed; where
R109 would not pass, which no run reaches, the machine stops. -/
def stepPerm (s : State) : Out :=
  match tselTable (cwTsel s.cmd) with
  | none => .fault .noEngineStep
  | some t =>
    match validatePerm t s, permResult (tableOf s t) s with
    | none, .ok x => .next (complete x s)
    | _, _ => .fault .unvalidatedOperand

end Sys2Proof.Machine
end

