-- ==== Sys2Proof/Machine/Feistel.lean ====
section
/-!
DEFINITION. The Feistel round function (42_feistel.md): the S-box layer, `feistel` and FEISTEL.
-/
namespace Sys2Proof.Machine

/-- Group g = 1..8 of a 48-bit value: positions 6g - 5 to 6g (R136). -/
def group (x : RoundKey) (g : Nat) : BitVec 6 := x.extractLsb' (48 - 6 * g) 6

/-- `row(g) = 2 * g.idx(0) + g.idx(5)` (R138). -/
def sboxRow (g : BitVec 6) : Nat := 2 * (idx g 0).toNat + (idx g 5).toNat

/-- `col(g) = 8 * g.idx(1) + 4 * g.idx(2) + 2 * g.idx(3) + g.idx(4)` (R138). -/
def sboxCol (g : BitVec 6) : Nat :=
  8 * (idx g 1).toNat + 4 * (idx g 2).toNat + 2 * (idx g 3).toNat + (idx g 4).toNat

/-- `S[g][row][col]` of a 6-bit group (R137, R138). -/
def sboxValue (g : Nat) (grp : BitVec 6) : BitVec 4 :=
  BitVec.ofNat 4 (((sbox g).getD (sboxRow grp) []).getD (sboxCol grp) 0)

/-- Steps (c) and (d) of R136: the value of S_g becomes positions 4g - 3 to 4g. -/
def sboxLayer (x : RoundKey) : Half :=
  sboxValue 1 (group x 1) ++ sboxValue 2 (group x 2) ++ sboxValue 3 (group x 3) ++
    sboxValue 4 (group x 4) ++ sboxValue 5 (group x 5) ++ sboxValue 6 (group x 6) ++
    sboxValue 7 (group x 7) ++ sboxValue 8 (group x 8)

/-- `feistel(R, K)` (R139). -/
def feistel (r : Half) (k : RoundKey) : Half :=
  gather 32 pTable (sboxLayer (gather 48 eTable r ^^^ k))

/-- `validate_FEISTEL` (R143). -/
def validateFeistel (s : State) : Option ErrCode :=
  if s.opa.len ≠ 32 then some .invalidBlockLength
  else if s.opb.len ≠ 48 then some .invalidKeyLength
  else none

/-- FEISTEL (R144). -/
def execFeistel (s : State) : Out := command (wordOf .feistel) validateFeistel accept s

/-- `step_FEISTEL` (R144). -/
def stepFeistel (s : State) : Out :=
  match validateFeistel s with
  | some _ => .fault .unvalidatedOperand
  | none => .next (complete (vecReg (feistel (held s.opa.bits 32) (held s.opb.bits 48))) s)

end Sys2Proof.Machine
end

