-- ==== Sys2Proof/Machine/KeySchedule.lean ====
section
/-!
DEFINITION. The key schedule generator (41_key_schedule.md): the function `ksched` and KSCHED.
-/
namespace Sys2Proof.Machine

/-- C_0, the first 28 bits of the permuted key (R121). -/
def keyC (key : Block) : KeyHalf := (gather 56 pc1Table key).extractLsb' 28 28

/-- D_0, the last 28 bits of the permuted key (R121). -/
def keyD (key : Block) : KeyHalf := (gather 56 pc1Table key).extractLsb' 0 28

/-- The rounds of R123 over a list of rotation amounts: rotate C and D, then PC2 of C ‖ D. -/
def scheduleFrom : List Nat → KeyHalf → KeyHalf → List RoundKey
  | [], _, _ => []
  | a :: as, c, d =>
    gather 48 pc2Table (rotl c a ++ rotl d a) :: scheduleFrom as (rotl c a) (rotl d a)

/-- One round key for each rotation amount. -/
theorem length_scheduleFrom (as : List Nat) :
    ∀ c d : KeyHalf, (scheduleFrom as c d).length = as.length := by
  induction as with
  | nil => intro c d; rfl
  | cons a as ih => intro c d; simp [scheduleFrom, ih]

/-- `ksched(key)` of a 64-bit key (R123): entry i - 1 is K[i]. -/
def ksched (key : Block) : Vector RoundKey 16 :=
  ⟨(scheduleFrom shifts (keyC key) (keyD key)).toArray, by simp [length_scheduleFrom, shifts]⟩

/-- The contract `generate_subkeys(master_key)` (R120), its failure included. -/
def generateSubkeys (key : VecReg) : Except ErrCode (Vector RoundKey 16) :=
  if key.len = 64 then .ok (ksched key.bits) else .error .invalidKeyLength

/-- `validate_KSCHED` (R127). -/
def validateKsched (k : KeySlot) (s : State) : Option ErrCode :=
  if (keyslot s k).len ≠ 64 then some .invalidKeyLength else none

/-- KSCHED k (R128). -/
def execKsched (k : KeySlot) (s : State) : Out :=
  command (wordOf (.ksched k)) (validateKsched k) accept s

/-- The completion of KSCHED (R128): RES and RES_VALID are not touched. -/
def completeKsched (s : State) : State := { s with phase := .final, busy := false }

/-- `step_KSCHED` (R128): all sixteen round keys in this one step. -/
def stepKsched (s : State) : Out :=
  match kselSlot (cwKsel s.cmd) with
  | none => .fault .noEngineStep
  | some k =>
    match generateSubkeys (keyslot s k) with
    | .ok rk => .next (completeKsched (storeSchedule rk s))
    | .error _ => .fault .unvalidatedOperand

end Sys2Proof.Machine
end

