-- ==== Sys2Proof/Machine/Des.lean ====
section
/-!
DEFINITION. The 16-round DES engine (43_des_engine.md): the function `des`, and the acceptance of
DES.ENC and DES.DEC. The engine steps of a stage are in Stages.lean.
-/
namespace Sys2Proof.Machine

/-- `rk(dir, K, i)` of round i = 1..16 (R156). -/
def roundKey (dir : Dir) (rk : Vector RoundKey 16) (i : Nat) : RoundKey :=
  (rkAt rk (rkIndex dir i)).getD 0

/-- One round (R154): L_i = R_{i-1}, R_i = L_{i-1} xor feistel(R_{i-1}, k), both from the old
halves. -/
def desRound (k : RoundKey) (lr : Half × Half) : Half × Half := (lr.2, lr.1 ^^^ feistel lr.2 k)

/-- (L_i, R_i) after i rounds from (L_0, R_0) (R154). -/
def desHalves (dir : Dir) (rk : Vector RoundKey 16) (lr : Half × Half) : Nat → Half × Half
  | 0 => lr
  | i + 1 => desRound (roundKey dir rk (i + 1)) (desHalves dir rk lr i)

/-- (L_0, R_0): the first and last 32 bits of the permuted block (R153). -/
def desStart (block : Block) : Half × Half :=
  (firstHalf (gather 64 ipTable block), lastHalf (gather 64 ipTable block))

/-- The pre-output R ‖ L (R155). -/
def preOutput (lr : Half × Half) : Block := lr.2 ++ lr.1

/-- `des(block, key, dir)` of a 64-bit block and a 64-bit key (R157). -/
def des (block key : Block) (dir : Dir) : Block :=
  gather 64 fpTable (preOutput (desHalves dir (ksched key) (desStart block) 16))

/-- The contract `des(block, key, direction)` (R150, R157), its failures included: the block is
checked before the key. -/
def desCall (block key : VecReg) (dir : Dir) : Except ErrCode Block :=
  if block.len ≠ 64 then .error .invalidBlockLength
  else if key.len ≠ 64 then .error .invalidKeyLength
  else .ok (des block.bits key.bits dir)

/-- `validate_DES` (R158). -/
def validateDes (k : KeySlot) (s : State) : Option ErrCode :=
  if s.opa.len ≠ 64 then some .invalidBlockLength
  else if (keyslot s k).len ≠ 64 then some .invalidKeyLength
  else none

/-- DES.ENC k (R158). -/
def execDesEnc (k : KeySlot) (s : State) : Out :=
  command (wordOf (.desEnc k)) (validateDes k) acceptBlock s

/-- DES.DEC k (R158). -/
def execDesDec (k : KeySlot) (s : State) : Out :=
  command (wordOf (.desDec k)) (validateDes k) acceptBlock s

end Sys2Proof.Machine
end

