-- ==== Sys2Proof/Machine/Tdes.lean ====
section
/-!
DEFINITION. The 3DES composer (44_tdes_composer.md): the function `tdes`, the stage parameters, and
the acceptance of the four TDES commands.
-/
namespace Sys2Proof.Machine

/-- `tdes(block, key1, key2, key3_opt, dir)` of 64-bit vectors (R180); `none` is two-key mode. -/
def tdes (block key1 key2 : Block) (key3opt : Option Block) (dir : Dir) : Block :=
  match dir with
  | .encrypt => des (des (des block key1 .encrypt) key2 .decrypt) (key3opt.getD key1) .encrypt
  | .decrypt => des (des (des block (key3opt.getD key1) .decrypt) key2 .encrypt) key1 .decrypt

/-- The contract `tdes(...)` (R175, R180), its failures included: the block, then the keys in order
(R178). -/
def tdesCall (block key1 key2 : VecReg) (key3opt : Option VecReg) (dir : Dir) :
    Except ErrCode Block :=
  if block.len ≠ 64 then .error .invalidBlockLength
  else if key1.len ≠ 64 then .error .invalidKeyLength
  else if key2.len ≠ 64 then .error .invalidKeyLength
  else if (key3opt.getD key1).len ≠ 64 then .error .invalidKeyLength
  else .ok (tdes block.bits key1.bits key2.bits (key3opt.map VecReg.bits) dir)

/-- `validate_TDES` (R178); the argument says whether K3EN = 1. In two-key mode KEY3 is not looked
at. -/
def validateTdes (threeKey : Bool) (s : State) : Option ErrCode :=
  if s.opa.len ≠ 64 then some .invalidBlockLength
  else if s.key1.len ≠ 64 then some .invalidKeyLength
  else if s.key2.len ≠ 64 then some .invalidKeyLength
  else if threeKey = true ∧ s.key3.len ≠ 64 then some .invalidKeyLength
  else none

/-- TDES2.ENC (R178). -/
def execTdes2Enc (s : State) : Out := command (wordOf .tdes2Enc) (validateTdes false) acceptBlock s

/-- TDES2.DEC (R178). -/
def execTdes2Dec (s : State) : Out := command (wordOf .tdes2Dec) (validateTdes false) acceptBlock s

/-- TDES3.ENC (R178). -/
def execTdes3Enc (s : State) : Out := command (wordOf .tdes3Enc) (validateTdes true) acceptBlock s

/-- TDES3.DEC (R178). -/
def execTdes3Dec (s : State) : Out := command (wordOf .tdes3Dec) (validateTdes true) acceptBlock s

/-- The direction of stage st of a TDES command (R177): CMD.DIR in stages 1 and 3, else the
opposite. -/
def tdesStageDir (w : CmdWord) (st : BitVec 2) : Dir :=
  if st = 1 ∨ st = 3 then dirOf (cwDir w) else opposite (dirOf (cwDir w))

/-- The key slot of stage st of a TDES command (R177). -/
def tdesStageKey (w : CmdWord) (st : BitVec 2) : KeySlot :=
  let third : KeySlot := if cwK3en w = 1 then .k3 else .k1
  if st = 2 then .k2
  else
    match dirOf (cwDir w) with
    | .encrypt => if st = 1 then .k1 else third
    | .decrypt => if st = 1 then third else .k1

end Sys2Proof.Machine
end

