-- ==== Sys2Proof/Machine/Stages.lean ====
section
/-!
DEFINITION. The engine steps of a DES stage (43_des_engine.md R159 to R163) and the step that joins
two stages of a TDES command (44_tdes_composer.md R179).
-/
namespace Sys2Proof.Machine

/-- The number of stages: 1 for DES, 3 for TDES (R159). -/
def nstage (w : CmdWord) : BitVec 2 := if cwOp w = 5 then 3 else 1

/-- `sdir(s)` (R159). -/
def stageDir (w : CmdWord) (st : BitVec 2) : Dir :=
  if cwOp w = 5 then tdesStageDir w st else dirOf (cwDir w)

/-- `skey(s)` (R159). KSEL = 3 names no slot. -/
def stageKey (w : CmdWord) (st : BitVec 2) : Option KeySlot :=
  if cwOp w = 5 then some (tdesStageKey w st) else kselSlot (cwKsel w)

/-- (L_0, R_0) into the halves (R160). -/
def loadHalves (lr : Half × Half) (s : State) : State :=
  { s with l := lr.1, r := lr.2, phase := .permuted }

/-- Init → Permuted (R160): the key schedule into RK, IP of BLK into L and R. -/
def stepPermuted (s : State) : Out :=
  match stageKey s.cmd s.stage with
  | none => .fault .noEngineStep
  | some k =>
    match generateSubkeys (keyslot s k) with
    | .ok rk => .next (loadHalves (desStart s.blk) (storeSchedule rk s))
    | .error _ => .fault .unvalidatedOperand

/-- The new halves and the round number (R161). -/
def roundHalves (lr : Half × Half) (i : Nat) (s : State) : State :=
  { s with l := lr.1, r := lr.2, round := BitVec.ofNat 5 i, phase := .round }

/-- To Round(i), i = ROUND + 1 (R161), with the round key RK[i] or RK[17 - i]. -/
def stepRound (s : State) : Out :=
  match rkAt s.rk (rkIndex (stageDir s.cmd s.stage) (s.round.toNat + 1)) with
  | some k => .next (roundHalves (desRound k (s.l, s.r)) (s.round.toNat + 1) s)
  | none => .fault .noEngineStep

/-- The pre-output into BLK (R162); L and R are not changed. -/
def formPreOutput (s : State) : State := { s with blk := preOutput (s.l, s.r), phase := .swapped }

/-- Round(16) → Swapped (R162). -/
def stepSwapped (s : State) : Out := .next (formPreOutput s)

/-- BLK takes the stage's output and PHASE is FINAL (R163). -/
def storeOutput (out : Block) (s : State) : State := { s with blk := out, phase := .final }

/-- Swapped → Final (R163): in the last stage the command completes. -/
def stepFinal (s : State) : Out :=
  let out := gather 64 fpTable s.blk
  if s.stage = nstage s.cmd then .next (complete (vecReg out) (storeOutput out s))
  else .next (storeOutput out s)

/-- The next stage (R179): BLK, which holds the previous stage's output, is kept. -/
def enterStage (s : State) : State := { s with stage := s.stage + 1, round := 0, phase := .init }

/-- Final → Init of the next stage (R179). STAGE stops at 3 (10_state.md R30). -/
def stepNextStage (s : State) : Out :=
  if s.stage = 3 then .fault .noEngineStep else .next (enterStage s)

/-- The one step that is enabled in a DES or TDES command, chosen by PHASE and ROUND (R159). -/
def stepStage (s : State) : Out :=
  match s.phase with
  | .init => stepPermuted s
  | .permuted => stepRound s
  | .round =>
    if s.round.toNat < 16 then stepRound s
    else if s.round = 16 then stepSwapped s
    else .fault .noEngineStep
  | .swapped => stepFinal s
  | .final => if cwOp s.cmd = 5 then stepNextStage s else .fault .noEngineStep
  | .idle => .fault .noEngineStep

end Sys2Proof.Machine
end

