-- ==== Sys2Proof/Machine/Engine.lean ====
section
/-!
DEFINITION. The ENGINE agent (00_scope.md R17): its one step, chosen by CMD.OP and PHASE. It is
taken only when BUSY = 1.
-/
namespace Sys2Proof.Machine

/-- PERM, KSCHED and FEISTEL have one step, enabled when PHASE = INIT (R110, R128, R144). -/
def atInit (s : State) (effect : Out) : Out :=
  if s.phase = .init then effect else .fault .noEngineStep

/-- An engine step (R17). Where BUSY = 0 or no rule is enabled there is none. -/
def engineStep (s : State) : Out :=
  if s.busy then
    match (cwOp s.cmd).toNat with
    | 1 => atInit s (stepPerm s)
    | 2 => atInit s (stepKsched s)
    | 3 => atInit s (stepFeistel s)
    | 4 => stepStage s
    | 5 => stepStage s
    | _ => .fault .noEngineStep
  else .fault .noEngineStep

/-- n engine steps in a row. -/
def engineRun : Nat → State → Out
  | 0, s => .next s
  | n + 1, s =>
    match engineStep s with
    | .next t => engineRun n t
    | .fault f => .fault f
    | .refused x => .refused x

end Sys2Proof.Machine
end

