-- ==== Sys2Proof/Machine/Transfers.lean ====
section
/-!
DEFINITION. The host's two bus operations (45_host_transfers.md): WR, with the acceptance of a
command where the register is CMD (R194), and RD.
-/
namespace Sys2Proof.Machine

/-- The meaning of the command a written word decodes to (R194): the same meaning the mnemonic has.
The decoder of command words never answers a transaction; were it to, the word would be Illegal. -/
def runCommand (w : CmdWord) (s : State) : Instr → Out
  | .permCustom => execPermCustom s
  | .permIp => execPermIp s
  | .permFp => execPermFp s
  | .permE => execPermE s
  | .permP => execPermP s
  | .permPc1 => execPermPc1 s
  | .permPc2 => execPermPc2 s
  | .ksched k => execKsched k s
  | .feistel => execFeistel s
  | .desEnc k => execDesEnc k s
  | .desDec k => execDesDec k s
  | .tdes2Enc => execTdes2Enc s
  | .tdes2Dec => execTdes2Dec s
  | .tdes3Enc => execTdes3Enc s
  | .tdes3Dec => execTdes3Dec s
  | .wr _ _ _ => illegalCommand w s
  | .rd _ => illegalCommand w s

/-- A write to CMD (R194): the word is DATA[31:0]; LEN and DATA[63:32] are ignored. -/
def writeCmd (data : Data) (s : State) : Out :=
  match decodeCommand (data.setWidth 32) with
  | .ok i => runCommand (data.setWidth 32) s i
  | .error _ => illegalCommand (data.setWidth 32) s

/-- `WR reg, len, data` (R191), by register class; a reserved index is refused, once BUSY = 0 (R198; log
entry 10). -/
def execWr (idx : RegIdx) (len : LenTag) (data : Data) (s : State) : Out :=
  whenFree s <|
    match regAt idx with
    | some .cmd => writeCmd data s
    | some x => .next (storeReg len data s x)
    | none => .refused (.reservedIndex idx)

/-- `RD reg` (R197): it changes no register. A read of STATUS has its step in every state (R196),
every other read is held while BUSY = 1 (R195); a reserved index is refused, once BUSY = 0 (R198; log
entry 10). -/
def execRd (idx : RegIdx) (s : State) : Out :=
  match regAt idx with
  | some .status => .next (respond s (readReg s .status))
  | some x => whenFree s (.next (respond s (readReg s x)))
  | none => whenFree s (.refused (.reservedIndex idx))

end Sys2Proof.Machine
end

