-- ==== Sys2Proof/Machine/Agents.lean ====
section
/-!
DEFINITION. Which agent moves next (00_scope.md R17; 45_host_transfers.md R195, R196) and what it
does. The host's program and reset are the list `inputs` (log entries 1, 2, 8).
-/
namespace Sys2Proof.Machine

/-- What happens next. -/
inductive Move
  /-- neither agent has a step: the run is over, or the engine waits for its host (R18, R235) -/
  | idle
  /-- the engine steps from this state -/
  | engine (s : State)
  /-- the host's transaction takes effect in this state -/
  | host (i : Instr) (s : State)
  /-- reset is asserted, and this is the state after it -/
  | reset (s : State)
  deriving DecidableEq, Repr

/-- The events that can happen while BUSY = 1: a read of STATUS (R196), the reads of WAIT, and reset
(R240). Every other transaction is held (R195). -/
def anytime : HostEvent → Bool
  | .xfer w => decide (decodeHt w = .rd 0x01)
  | .wait => true
  | .reset => true

/-- The state after reset (R240): the reset state of R39, whatever was in progress. What is still to
come from outside, what the host has read, and the free schedule's index are not the engine's and
stay (log entry 8). -/
def afterReset (s : State) : State :=
  { State.reset with inputs := s.inputs, received := s.received, turn := s.turn + 1 }

/-- The head of the input list happens. A WAIT stays at the head while BUSY = 1 (30_encoding.md
R95). -/
def hostMove (e : HostEvent) (rest : List HostEvent) (s : State) : Move :=
  match e with
  | .xfer w => .host (decodeHt w) { s with inputs := rest }
  | .wait => .host (.rd 0x01) { s with inputs := if s.busy then .wait :: rest else rest }
  | .reset => .reset (afterReset { s with inputs := rest })

/-- The engine moves: the free schedule's next draw is used up (log entry 3). -/
def engineTurn (s : State) : State := { s with turn := s.turn + 1, polls := 0 }

/-- One more host step while the engine also had one. -/
def hostTurn (s : State) : State := { s with polls := s.polls + 1 }

/-- Which agent moves (R17). Where both have a step, the free value decides how many steps the host
takes before the engine's (log entry 3). -/
def nextMove (s : State) : Move :=
  match s.busy, s.inputs with
  | false, [] => .idle
  | false, e :: rest => hostMove e rest s
  | true, [] => .engine (engineTurn s)
  | true, e :: rest =>
    if anytime e && decide (s.polls < Config.pollsBefore s.turn) then hostMove e rest (hostTurn s)
    else .engine (engineTurn s)

/-- The port's next transaction is this encoding, and BUSY = 0, so that the host moves next and it
takes effect in the very next step (log entry 1). -/
def placeNext (e : Encoding) (s : State) : State :=
  { s with inputs := .xfer (portWord e) :: s.inputs, busy := false }

end Sys2Proof.Machine
end

