-- ==== Sys2Proof/Machine/Dispatch.lean ====
section
/-!
DEFINITION. What each instruction does: one arm for each row of spec/opcode_table.json. A command's
arm is its write to CMD (30_encoding.md R94, 45_host_transfers.md R194); the engine's steps then
carry the command out (Engine.lean; log entry 15).
-/
namespace Sys2Proof.Machine

def exec (i : Instr) (s : State) : Host.Outcome State Fault Refusal :=
  match i with
  | .permCustom => Sys2Proof.Machine.execPermCustom s
  | .permIp => Sys2Proof.Machine.execPermIp s
  | .permFp => Sys2Proof.Machine.execPermFp s
  | .permE => Sys2Proof.Machine.execPermE s
  | .permP => Sys2Proof.Machine.execPermP s
  | .permPc1 => Sys2Proof.Machine.execPermPc1 s
  | .permPc2 => Sys2Proof.Machine.execPermPc2 s
  | .ksched k => Sys2Proof.Machine.execKsched k s
  | .feistel => Sys2Proof.Machine.execFeistel s
  | .desEnc k => Sys2Proof.Machine.execDesEnc k s
  | .desDec k => Sys2Proof.Machine.execDesDec k s
  | .tdes2Enc => Sys2Proof.Machine.execTdes2Enc s
  | .tdes2Dec => Sys2Proof.Machine.execTdes2Dec s
  | .tdes3Enc => Sys2Proof.Machine.execTdes3Enc s
  | .tdes3Dec => Sys2Proof.Machine.execTdes3Dec s
  | .wr idx len data => Sys2Proof.Machine.execWr idx len data s
  | .rd idx => Sys2Proof.Machine.execRd idx s

end Sys2Proof.Machine
end

