-- ==== Sys2Proof/Machine/Step.lean ====
section
/-!
DEFINITION. One step of the machine: the agent that moves next takes its atomic step (00_scope.md
R17; 20_memory.md R56). Everything it calls is in the files beside this one.
-/
namespace Sys2Proof.Machine

/-- One step (R17). Where neither agent has a step, nothing changes (log entry 5). -/
def step (s : State) : Host.Outcome State Fault Refusal :=
  match nextMove s with
  | .idle => .next s
  | .engine t => engineStep t
  | .host i t => exec i t
  | .reset t => .next t

/-- The state with a table row's word as the host's next transaction (log entry 1). A command word is
placed as the transaction that writes it to CMD (30_encoding.md R75, R94). A word that does not fit
its format is not placed. -/
def State.withFetchWord (s : State) (nbits w : Nat) : State :=
  match tableEncoding nbits w with
  | some e => placeNext e s
  | none => s

end Sys2Proof.Machine
end

