-- ==== Sys2Proof/Machine/Hex.lean ====
section
/-!
DEFINITION. The hexadecimal boundary (20_memory.md R62 to R66). The host does these conversions, not
the engine; their two errors never reach STATUS.ERR (60_exceptions.md R211).
-/
namespace Sys2Proof.Machine

/-- The value of a hex character, 0..15; both letter cases are accepted (R63). -/
def hexValue (c : Char) : Option Nat :=
  if 48 ≤ c.toNat ∧ c.toNat ≤ 57 then some (c.toNat - 48)
  else if 65 ≤ c.toNat ∧ c.toNat ≤ 70 then some (c.toNat - 55)
  else if 97 ≤ c.toNat ∧ c.toNat ≤ 102 then some (c.toNat - 87)
  else none

/-- The uppercase hex digit of a number 0..15 (R64). -/
def hexDigit (d : Nat) : Char := if d < 10 then Char.ofNat (48 + d) else Char.ofNat (55 + d)

/-- `hex_to_bits(s, width)` (R63): the length is checked first; digit k carries positions 4k - 3 to
4k, its most significant bit first. -/
def hexToBits (s : List Char) (width : Nat) : Except ErrCode (BitVec width) :=
  if 4 * s.length ≠ width then .error .invalidHexLength
  else if s.all fun c => (hexValue c).isSome then
    .ok (ofIdx width fun j => ((hexValue (s.getD (j / 4) '0')).getD 0).testBit (3 - j % 4))
  else .error .invalidHexDigit

/-- The number of four bits of a vector, from index j on. -/
def nibbleAt {n : Nat} (v : BitVec n) (j : Nat) : Nat :=
  8 * (idx v j).toNat + 4 * (idx v (j + 1)).toNat + 2 * (idx v (j + 2)).toNat + (idx v (j + 3)).toNat

/-- How many zeros R64 puts on the left of an n-bit vector. -/
def hexPad (n : Nat) : Nat := (4 - n % 4) % 4

/-- `bits_to_hex(v)` (R64): zero-padded on the left to a multiple of 4 bits. -/
def bitsToHex {n : Nat} (v : BitVec n) : List Char :=
  (List.range ((n + hexPad n) / 4)).map fun k =>
    hexDigit (nibbleAt (v.setWidth (n + hexPad n)) (4 * k))

/-- What RDHEX presents of a read (30_encoding.md R95): `bits_to_hex` of the vector of length RLEN in
RDATA. For RLEN above 64 there is no such vector and the text is a free value (log entry 11). -/
def presentHex (x : Response) : List Char :=
  if x.rlen.toNat ≤ 64 then bitsToHex (held x.rdata x.rlen.toNat)
  else Config.overlongHex x.rlen x.rdata

end Sys2Proof.Machine
end

