-- ==== Sys2Proof/Machine/Asm.lean ====
section
/-!
DEFINITION. The assembly notation of 30_encoding.md R91 to R96: register names, literals, the two
real instructions, the fifteen command mnemonics and the pseudo-instructions, read from text and
expanded into the events the host issues. It carries no semantics of its own beyond the expansions
(D29 of 92_eei_decisions.md).
-/
namespace Sys2Proof.Machine

/-- Why a line does not assemble. -/
inductive AsmError
  /-- the conversion of R63 fails: InvalidHexLength or InvalidHexDigit (R93, R95) -/
  | hex (e : ErrCode)
  /-- a vector whose length LEN, or whose number DATA, cannot carry (R86; log entry 12) -/
  | tooLong
  /-- a table of more than 64 entries (R95; log entry 12) -/
  | tableTooLong
  /-- a line that is none of R94 and R95 (log entry 13) -/
  | badLine
  deriving DecidableEq, Repr

/-- A line of a program (R94, R95). -/
inductive AsmLine
  | wr (reg : Reg) (len : LenTag) (data : Data)
  | rd (reg : Reg)
  /-- a command mnemonic, given as its instruction -/
  | command (i : Instr)
  /-- `LD reg, h"..."`, with the literal's digits -/
  | ld (reg : Reg) (digits : List Char)
  | ldhex (reg : Reg) (s : List Char) (width : Nat)
  | ldbits (reg : Reg) (len : LenTag) (data : Data)
  | ldtbl (entries : List Data)
  | wait
  | rdhex (reg : Reg)
  | rderr
  deriving DecidableEq, Repr

/-- `WR reg, len, data` as a transaction (R94). -/
def asmWr (reg : Reg) (len : LenTag) (data : Data) : HostEvent :=
  .xfer (htOf 1 (regIdx reg) len data)

/-- `RD reg` as a transaction: LEN = 0, DATA = 0 (R94). -/
def asmRd (reg : Reg) : HostEvent := .xfer (htOf 0 (regIdx reg) 0 0)

/-- `WR reg, width, num(hex_to_bits(s, width))` (R65, R95). A length above 64 is declared like any
other (R22, D2). Nothing is emitted where the conversion fails, nor where the length is no 8-bit
number or the vector's number no 64-bit one, which no transaction can carry (R86; log entry 12). -/
def asmLoadHex (reg : Reg) (s : List Char) (width : Nat) : Except AsmError (List HostEvent) :=
  match hexToBits s width with
  | .error e => .error (.hex e)
  | .ok v =>
    if width < 2 ^ 8 ∧ v.toNat < 2 ^ 64 then
      .ok [asmWr reg (BitVec.ofNat 8 width) (v.setWidth 64)]
    else .error .tooLong

/-- The writes `WR TBLj, 0, t` of LDTBL, from entry j on (R95). -/
def asmTable : Nat → List Data → List HostEvent
  | _, [] => []
  | j, t :: ts => asmWr (.tbl (Fin.ofNat 64 j)) 0 t :: asmTable (j + 1) ts

/-- The events a line expands to (R94, R95). RDHEX and RDERR read a register; what they present of
the response is `presentHex` and `presentErr`. -/
def assemble : AsmLine → Except AsmError (List HostEvent)
  | .wr reg len data => .ok [asmWr reg len data]
  | .rd reg => .ok [asmRd reg]
  | .command i => .ok [.xfer (transactionOf i)]
  | .ld reg digits => asmLoadHex reg digits (4 * digits.length)
  | .ldhex reg s width => asmLoadHex reg s width
  | .ldbits reg len data => .ok [asmWr reg len data]
  | .ldtbl ts =>
    if ts.length ≤ 64 then
      .ok (asmTable 0 ts ++ [asmWr .tblLen 0 (BitVec.ofNat 64 ts.length)])
    else .error .tableTooLong
  | .wait => .ok [.wait]
  | .rdhex reg => .ok [asmRd reg]
  | .rderr => .ok [asmRd .status]

/-- A program: its lines in order (R91). The first line that does not assemble decides the error. -/
def assembleAll : List AsmLine → Except AsmError (List HostEvent)
  | [] => .ok []
  | x :: xs =>
    match assemble x, assembleAll xs with
    | .error e, _ => .error e
    | .ok _, .error e => .error e
    | .ok a, .ok b => .ok (a ++ b)

/-- What RDERR presents of a STATUS read: bits 7:4 as an error name (R95, 60_exceptions.md R210); none
for the reserved codes. -/
def presentErr (x : Response) : Option ErrCode := errNamed (x.rdata.extractLsb' 4 4)

/-! ### Reading the notation from text (R91, R92, R93) -/

/-- The double quote that stands around a vector literal's digits. -/
def quoteChar : Char := Char.ofNat 34

/-- A finished token, none where no character has been read. -/
def flush (cur : List Char) : List (List Char) := if cur.isEmpty then [] else [cur.reverse]

/-- The tokens of a line: blanks, tabs and commas separate, a semicolon starts a comment, and between
double quotes neither does (log entry 13). -/
def tokens : List Char → Bool → List Char → List (List Char)
  | [], _, cur => flush cur
  | c :: cs, true, cur =>
    if c = quoteChar then tokens cs false (c :: cur) else tokens cs true (c :: cur)
  | c :: cs, false, cur =>
    if c = ';' then flush cur
    else if c = quoteChar then tokens cs true (c :: cur)
    else if c = ' ' ∨ c = '\t' ∨ c = ',' then flush cur ++ tokens cs false []
    else tokens cs false (c :: cur)

/-- The number of a digit string in a base, none where a character is no digit of the base. -/
def digitsNumber (base : Nat) (s : List Char) : Option Nat :=
  s.foldl
    (fun acc c =>
      match acc, hexValue c with
      | some a, some d => if d < base then some (base * a + d) else none
      | _, _ => none)
    (some 0)

/-- A number: decimal, or hexadecimal with 0x (R93). -/
def numberOf : List Char → Option Nat
  | [] => none
  | '0' :: 'x' :: c :: cs => digitsNumber 16 (c :: cs)
  | c :: cs => digitsNumber 10 (c :: cs)

/-- A number that fits w bits. -/
def fieldOf (w : Nat) (s : List Char) : Option (BitVec w) :=
  match numberOf s with
  | some n => if n < 2 ^ w then some (BitVec.ofNat w n) else none
  | none => none

/-- The characters between a token's two double quotes. -/
def quoted : List Char → Option (List Char)
  | c :: cs =>
    if c = quoteChar ∧ cs.getLast? = some quoteChar then some cs.dropLast else none
  | [] => none

/-- The digits of a vector literal `h"..."` (R93). -/
def literalOf : List Char → Option (List Char)
  | 'h' :: cs => quoted cs
  | _ => none

/-- A register's name (R92). -/
def regName : Reg → List Char
  | .cmd => ['C', 'M', 'D']
  | .status => ['S', 'T', 'A', 'T', 'U', 'S']
  | .opa => ['O', 'P', 'A']
  | .opb => ['O', 'P', 'B']
  | .key1 => ['K', 'E', 'Y', '1']
  | .key2 => ['K', 'E', 'Y', '2']
  | .key3 => ['K', 'E', 'Y', '3']
  | .res => ['R', 'E', 'S']
  | .tblLen => ['T', 'B', 'L', '_', 'L', 'E', 'N']
  | .rk i => ['R', 'K'] ++ Nat.toDigits 10 (i.val + 1)
  | .tbl j => ['T', 'B', 'L'] ++ Nat.toDigits 10 j.val

/-- Every register of the map. -/
def allRegs : List Reg :=
  [.cmd, .status, .opa, .opb, .key1, .key2, .key3, .res, .tblLen] ++
    (List.finRange 16).map .rk ++ (List.finRange 64).map .tbl

/-- The register of a name (R92). -/
def regNamed (s : List Char) : Option Reg := allRegs.find? fun x => decide (regName x = s)

/-- The slot of an operand K1, K2 or K3 (R92). -/
def slotNamed : List Char → Option KeySlot
  | ['K', '1'] => some .k1
  | ['K', '2'] => some .k2
  | ['K', '3'] => some .k3
  | _ => none

/-- The command mnemonics without an operand (R94). -/
def plainCommand (s : String) : Option Instr :=
  if s = "PERM.CUSTOM" then some .permCustom
  else if s = "PERM.IP" then some .permIp
  else if s = "PERM.FP" then some .permFp
  else if s = "PERM.E" then some .permE
  else if s = "PERM.P" then some .permP
  else if s = "PERM.PC1" then some .permPc1
  else if s = "PERM.PC2" then some .permPc2
  else if s = "FEISTEL" then some .feistel
  else if s = "TDES2.ENC" then some .tdes2Enc
  else if s = "TDES2.DEC" then some .tdes2Dec
  else if s = "TDES3.ENC" then some .tdes3Enc
  else if s = "TDES3.DEC" then some .tdes3Dec
  else none

/-- The command mnemonics with a key slot (R94). -/
def slotCommand (s : String) (k : KeySlot) : Option Instr :=
  if s = "KSCHED" then some (.ksched k)
  else if s = "DES.ENC" then some (.desEnc k)
  else if s = "DES.DEC" then some (.desDec k)
  else none

/-- The lines with a register operand and nothing else (R94, R95). -/
def regLine (s : String) (reg : Reg) : Option AsmLine :=
  if s = "RD" then some (.rd reg) else if s = "RDHEX" then some (.rdhex reg) else none

/-- A line from its mnemonic and operands (R94, R95). -/
def lineOf (m : List Char) (args : List (List Char)) : Option AsmLine :=
  let s := String.ofList m
  if s = "LDTBL" then (args.mapM (fieldOf 64)).map .ldtbl
  else
    match args with
    | [] =>
      if s = "WAIT" then some .wait
      else if s = "RDERR" then some .rderr
      else (plainCommand s).map .command
    | [a] =>
      match slotNamed a, regNamed a with
      | some k, _ => (slotCommand s k).map .command
      | none, some reg => regLine s reg
      | none, none => none
    | [a, b] =>
      match regNamed a, literalOf b with
      | some reg, some digits => if s = "LD" then some (.ld reg digits) else none
      | _, _ => none
    | [a, b, c] =>
      if s = "LDHEX" then
        match regNamed a, quoted b, numberOf c with
        | some reg, some t, some width => some (.ldhex reg t width)
        | _, _, _ => none
      else
        match regNamed a, fieldOf 8 b, fieldOf 64 c with
        | some reg, some len, some data =>
          if s = "WR" then some (.wr reg len data)
          else if s = "LDBITS" then some (.ldbits reg len data)
          else none
        | _, _, _ => none
    | _ => none

/-- A line of text: nothing, where it is blank or only a comment (R91). -/
def parseLine (text : List Char) : Except AsmError (Option AsmLine) :=
  match tokens text false [] with
  | [] => .ok none
  | m :: args =>
    match lineOf m args with
    | some x => .ok (some x)
    | none => .error .badLine

end Sys2Proof.Machine
end

