-- ==== Sys2Proof/Safety.lean ====
section
/-!
DEFINITION. What counts as a good state, in the terms the statements use: the eight invariants of
10_state.md R38, the stronger invariant that every step keeps, the reachable states, and the order in
which a command's phases follow each other (70_reset_and_hazards.md R250).
-/
namespace Sys2Proof.Safety

open Sys2Proof.Machine

/-- A vector register with a length tag up to 64 has no bit set at or above it (R22, R38 (h)). -/
abbrev Tidy (v : VecReg) : Prop := v.len.toNat ≤ 64 → v.bits.toNat < 2 ^ v.len.toNat

/-- CMD.OP is DES or TDES (R77). -/
abbrev IsCipher (w : CmdWord) : Prop := cwOp w = 4 ∨ cwOp w = 5

/-- The eight clauses (a) to (h) of 10_state.md R38. -/
structure StateRules (s : State) : Prop where
  idleOrFinal : s.busy = false → s.phase = .idle ∨ s.phase = .final
  idleIsClear : s.phase = .idle → s.round = 0 ∧ s.stage = 0 ∧ s.busy = false
  validResult : s.resValid = true →
    s.busy = false ∧ s.err = .none ∧ s.phase = .final ∧ s.res.len.toNat ≤ 64
  errorIsOver : s.err ≠ .none → s.busy = false ∧ s.phase = .idle ∧ s.resValid = false
  resFits : s.res.len.toNat ≤ 64 ∧ s.res.bits.toNat < 2 ^ s.res.len.toNat
  roundBound : s.round.toNat ≤ 16
  stageOfCipher : s.stage ≠ 0 ↔ IsCipher s.cmd ∧ s.phase ≠ .idle
  operandsTidy : Tidy s.opa ∧ Tidy s.opb ∧ Tidy s.key1 ∧ Tidy s.key2 ∧ Tidy s.key3

/-- The word w is a command whose validation the operands of s pass (R194: R109, R127, R143, R158,
R178). -/
inductive Passes (s : State) (w : CmdWord) : Prop
  | perm (t : TableSel) (op : cwOp w = 1) (sel : tselTable (cwTsel w) = some t)
      (valid : validatePerm t s = none) : Passes s w
  | ksched (k : KeySlot) (op : cwOp w = 2) (sel : kselSlot (cwKsel w) = some k)
      (valid : validateKsched k s = none) : Passes s w
  | feistel (op : cwOp w = 3) (valid : validateFeistel s = none) : Passes s w
  | des (k : KeySlot) (op : cwOp w = 4) (sel : kselSlot (cwKsel w) = some k)
      (valid : validateDes k s = none) : Passes s w
  | tdes (op : cwOp w = 5) (valid : validateTdes (decide (cwK3en w = 1)) s = none) : Passes s w

/-- ROUND in each phase of a stage (R160 to R163). -/
def RoundOfPhase (s : State) : Prop :=
  match s.phase with
  | .idle => False
  | .init => s.round = 0
  | .permuted => s.round = 0
  | .round => 1 ≤ s.round.toNat ∧ s.round.toNat ≤ 16
  | .swapped => s.round = 16
  | .final => s.round = 16

/-- Where a command in progress can stand (R110, R128, R144, R160 to R163, R179). -/
structure PlaceValid (s : State) : Prop where
  single : ¬ IsCipher s.cmd → s.stage = 0 ∧ s.phase = .init ∧ s.round = 0
  des : cwOp s.cmd = 4 → s.stage = 1 ∧ s.phase ≠ .final
  tdes : cwOp s.cmd = 5 → s.stage ≠ 0 ∧ (s.phase = .final → s.stage ≠ 3)
  round : RoundOfPhase s

/-- The invariant of the machine: the rules of R38, and, of a command in progress, that its operands
still pass the validation they passed at acceptance (they cannot change while BUSY = 1, R195) and that
it stands where an engine rule is enabled. -/
structure Inv (s : State) : Prop where
  rules : StateRules s
  inProgress : s.busy = true →
    s.err = .none ∧ s.resValid = false ∧ Passes s s.cmd ∧ PlaceValid s

/-- The states of the runs from reset, whatever comes from outside (R18). -/
inductive Reachable : State → Prop
  | start (events : List HostEvent) : Reachable { State.reset with inputs := events }
  | next {s t : State} : Reachable s → step s = .next t → Reachable t

/-- The operand registers of two states are the same (R23 to R25, R28). -/
def SameOperands (s t : State) : Prop :=
  t.opa = s.opa ∧ t.opb = s.opb ∧ t.key1 = s.key1 ∧ t.key2 = s.key2 ∧ t.key3 = s.key3 ∧
  t.tbl = s.tbl ∧ t.tblLen = s.tblLen

/-- Two states agree on the operand registers a command names (R79), which are all its result may
depend on (R37). A transaction is no command and names none. -/
def NamedOperands (i : Instr) (s t : State) : Prop :=
  match i with
  | .permCustom => t.opa = s.opa ∧ t.tbl = s.tbl ∧ t.tblLen = s.tblLen
  | .permIp => t.opa = s.opa
  | .permFp => t.opa = s.opa
  | .permE => t.opa = s.opa
  | .permP => t.opa = s.opa
  | .permPc1 => t.opa = s.opa
  | .permPc2 => t.opa = s.opa
  | .ksched k => keyslot t k = keyslot s k
  | .feistel => t.opa = s.opa ∧ t.opb = s.opb
  | .desEnc k => t.opa = s.opa ∧ keyslot t k = keyslot s k
  | .desDec k => t.opa = s.opa ∧ keyslot t k = keyslot s k
  | .tdes2Enc => t.opa = s.opa ∧ t.key1 = s.key1 ∧ t.key2 = s.key2
  | .tdes2Dec => t.opa = s.opa ∧ t.key1 = s.key1 ∧ t.key2 = s.key2
  | .tdes3Enc => t.opa = s.opa ∧ t.key1 = s.key1 ∧ t.key2 = s.key2 ∧ t.key3 = s.key3
  | .tdes3Dec => t.opa = s.opa ∧ t.key1 = s.key1 ∧ t.key2 = s.key2 ∧ t.key3 = s.key3
  | .wr _ _ _ => True
  | .rd _ => True

/-- The place of a state in the order of R160 to R163 and R179: by STAGE, then PHASE, then ROUND. -/
def progress (s : State) : Nat :=
  1000 * s.stage.toNat + 100 * (phaseNumber s.phase).toNat + s.round.toNat

/-! ### The states a command leads to, written out from the spec -/

/-- After a refused command (60_exceptions.md R213): CMD holds the word, ERR the code, RES_VALID and
BUSY are 0, PHASE is IDLE, ROUND and STAGE are 0, and nothing else has changed. -/
def refusedState (w : CmdWord) (e : ErrCode) (s : State) : State :=
  { s with
    cmd := w
    err := e
    resValid := false
    busy := false
    phase := .idle
    round := 0
    stage := 0 }

/-- After an accepted command (45_host_transfers.md R194): STAGE and BLK as the arguments say. -/
def acceptedState (w : CmdWord) (stage : BitVec 2) (blk : Block) (s : State) : State :=
  { s with
    cmd := w
    err := .none
    resValid := false
    busy := true
    phase := .init
    round := 0
    stage := stage
    blk := blk }

/-- After a completed PERM or FEISTEL command (R110, R144). -/
def resultState (w : CmdWord) (x : VecReg) (s : State) : State :=
  { s with
    cmd := w
    err := .none
    resValid := true
    busy := false
    phase := .final
    round := 0
    stage := 0
    res := x }

/-- After a completed DES or TDES command (R165, R182): RES holds the 64-bit block out, BLK too, RK
the schedule of the last stage's key, L and R the halves after that stage's last round. -/
def cipherState (w : CmdWord) (stage : BitVec 2) (key : Block) (halves : Half × Half) (out : Block)
    (s : State) : State :=
  { s with
    cmd := w
    err := .none
    resValid := true
    rkValid := true
    busy := false
    phase := .final
    round := 16
    stage := stage
    rk := ksched key
    l := halves.1
    r := halves.2
    blk := out
    res := ⟨64, out⟩ }

/-- Exactly n engine steps complete the command in progress in u, with t as the state after them: no
earlier state on the way has BUSY = 0. -/
def CompletesIn (n : Nat) (u t : State) : Prop :=
  engineRun n u = .next t ∧ t.busy = false ∧
    ∀ k, k < n → ∃ v, engineRun k u = .next v ∧ v.busy = true

/-! ### The functions, bit by bit, written out from the spec

Index j of a vector is its bit `getMsbD j`; a table's entry at place j is the 1-based position read. -/

/-- The entry of S-box g that the bits b0 to b5 of group g select (R137, R138). -/
def sboxEntry (g : Nat) (b : Nat → Bool) : Nat :=
  ((sbox g).getD (2 * (b 0).toNat + (b 5).toNat) []).getD
    (8 * (b 1).toNat + 4 * (b 2).toNat + 2 * (b 3).toNat + (b 4).toNat) 0

/-- The round function of R136, R139: x is E(R) xor K, the four bits of v at positions 4g - 3 to 4g are
what S_g selects by the six bits of x at positions 6g - 5 to 6g, and out is P of v. -/
def RoundFunction (r : Half) (k : RoundKey) (out : Half) : Prop :=
  ∃ (x : RoundKey) (v : Half),
    (∀ j, j < 48 → x.getMsbD j = (r.getMsbD (eTable.getD j 0 - 1) ^^ k.getMsbD j)) ∧
    (∀ g, 1 ≤ g → g ≤ 8 → (v.extractLsb' (32 - 4 * g) 4).toNat =
      sboxEntry g fun b => x.getMsbD (6 * g - 6 + b)) ∧
    ∀ j, j < 32 → out.getMsbD j = v.getMsbD (pTable.getD j 0 - 1)

/-- The key schedule of R121 to R123: C_0 and D_0 are the halves of PC1 of the key, C_i and D_i are the
halves before them rotated left by SHIFTS[i], and K_i is PC2 of C_i ‖ D_i. -/
def RoundKeys (key : Block) (rk : Vector RoundKey 16) : Prop :=
  ∃ c d : Nat → KeyHalf,
    (∀ j, j < 28 → (c 0).getMsbD j = key.getMsbD (pc1Table.getD j 0 - 1) ∧
      (d 0).getMsbD j = key.getMsbD (pc1Table.getD (28 + j) 0 - 1)) ∧
    ∀ i : Fin 16,
      (∀ j, j < 28 →
        (c (i + 1)).getMsbD j = (c i).getMsbD ((j + shifts.getD i 0) % 28) ∧
        (d (i + 1)).getMsbD j = (d i).getMsbD ((j + shifts.getD i 0) % 28)) ∧
      ∀ j, j < 48 → rk[i].getMsbD j = (c (i + 1) ++ d (i + 1)).getMsbD (pc2Table.getD j 0 - 1)

/-- DES of R153 to R157: L_0 and R_0 are the halves of IP of the block, round i + 1 takes K_{i+1} in
encryption and K_{16-i} in decryption, and the output is FP of R_16 ‖ L_16. -/
def SixteenRounds (block : Block) (rk : Vector RoundKey 16) (dir : Dir) (out : Block) : Prop :=
  ∃ l r : Nat → Half,
    (∀ j, j < 32 → (l 0).getMsbD j = block.getMsbD (ipTable.getD j 0 - 1) ∧
      (r 0).getMsbD j = block.getMsbD (ipTable.getD (32 + j) 0 - 1)) ∧
    (∀ i : Fin 16, l (i + 1) = r i ∧
      r (i + 1) = l i ^^^ feistel (r i) (if dir = .encrypt then rk[i] else rk[i.rev])) ∧
    ∀ j, j < 64 → out.getMsbD j = (r 16 ++ l 16).getMsbD (fpTable.getD j 0 - 1)

/-! ### What a command does, by family -/

/-- What R110 says of the PERM command i of table t, m entries long: for m ≤ 64, an input of length
n ≤ 64 and entries between 1 and n, it is accepted and one engine step leaves in RES the vector of
length m whose bit for entry j is the input's bit at position `t[j]`, which stands in register bit
n - t[j] (R12). -/
def PermRuns (i : Instr) (w : CmdWord) (m : State → Nat) (t : State → Table) : Prop :=
  ∀ s : State, s.busy = false → s.opa.len.toNat ≤ 64 → m s ≤ 64 →
    (∀ k ∈ t s, 1 ≤ k ∧ k ≤ s.opa.len.toNat) →
    ∃ x : VecReg,
      exec i s = .next (acceptedState w 0 s.blk s) ∧
      CompletesIn 1 (acceptedState w 0 s.blk s) (resultState w x s) ∧
      (t s).length = m s ∧ x.len.toNat = m s ∧
      (∀ j (h : j < (t s).length), x.bits.getLsbD (m s - 1 - j) =
        s.opa.bits.getLsbD (s.opa.len.toNat - (t s)[j])) ∧
      ∀ b, m s ≤ b → x.bits.getLsbD b = false

/-- What R109 says of the PERM command i of a ROM table t: the checks in order. -/
def PermChecks (i : Instr) (w : CmdWord) (t : Table) : Prop :=
  ∀ s : State, s.busy = false →
    exec i s = .next (
      if 64 < s.opa.len.toNat then refusedState w .invalidBlockLength s
      else if ∃ k ∈ t, k < 1 ∨ s.opa.len.toNat < k then refusedState w .invalidTableIndex s
      else acceptedState w 0 s.blk s)

/-- What R158 says of the acceptance of the DES command i with the key slot k. -/
def DesChecks (i : Instr) (w : CmdWord) (k : KeySlot) : Prop :=
  ∀ s : State, s.busy = false →
    exec i s = .next (
      if s.opa.len ≠ 64 then refusedState w .invalidBlockLength s
      else if (keyslot s k).len ≠ 64 then refusedState w .invalidKeyLength s
      else acceptedState w 1 s.opa.bits s)

/-- What R178 says of the acceptance of the TDES command i. -/
def TdesChecks (i : Instr) (w : CmdWord) (threeKey : Bool) : Prop :=
  ∀ s : State, s.busy = false →
    exec i s = .next (
      if s.opa.len ≠ 64 then refusedState w .invalidBlockLength s
      else if s.key1.len ≠ 64 then refusedState w .invalidKeyLength s
      else if s.key2.len ≠ 64 then refusedState w .invalidKeyLength s
      else if threeKey = true ∧ s.key3.len ≠ 64 then refusedState w .invalidKeyLength s
      else acceptedState w 1 s.opa.bits s)

/-- What R165 says of the DES command i: nineteen engine steps, and RES = (64, des(OPA, key, dir)). -/
def DesRuns (i : Instr) (w : CmdWord) (k : KeySlot) (dir : Dir) : Prop :=
  ∀ s : State, s.busy = false → s.opa.len = 64 → (keyslot s k).len = 64 →
    exec i s = .next (acceptedState w 1 s.opa.bits s) ∧
    CompletesIn 19 (acceptedState w 1 s.opa.bits s)
      (cipherState w 1 (keyslot s k).bits
        (desHalves dir (ksched (keyslot s k).bits) (desStart s.opa.bits) 16)
        (des s.opa.bits (keyslot s k).bits dir) s)

/-- What R182 says of the TDES command i whose stages use the keys a, b, c and the directions d, the
opposite of d, and d: fifty-nine engine steps, and RES = (64, tdes(...)). -/
def TdesRuns (i : Instr) (w : CmdWord) (a b c : State → VecReg) (d : Dir)
    (result : State → Block) : Prop :=
  ∀ s : State, s.busy = false → s.opa.len = 64 → (a s).len = 64 → (b s).len = 64 →
    (c s).len = 64 →
    exec i s = .next (acceptedState w 1 s.opa.bits s) ∧
    CompletesIn 59 (acceptedState w 1 s.opa.bits s)
      (cipherState w 3 (c s).bits
        (desHalves d (ksched (c s).bits)
          (desStart (des (des s.opa.bits (a s).bits d) (b s).bits (opposite d))) 16)
        (result s) s)

end Sys2Proof.Safety
end

