-- ==== Sys2Proof/Certificates/Slice0/Obligations.lean ====
section
/-!
DEFINITION. The statements for the provers, file by file of the spec. Each docstring names the rule of
spec/ it formalises; OBLIGATIONS.json lists them.
-/

open Sys2Proof Sys2Proof.Machine Sys2Proof.Safety

/-! ### Encoding (30_encoding.md) -/

/-- R80, R81, R86: decoding an encoded instruction gives it back, with every operand at every value. -/
def Obligations.EncodeThenDecodeIsIdentity : Prop := ∀ i : Instr, decode (encode i) = .ok i

/-- R80: the legal command words are exactly twenty-one, each one command. -/
def Obligations.LegalCommandWords : Prop :=
  ∀ (w : CmdWord) (i : Instr), decodeCommand w = .ok i ↔
    (w, i) ∈ [
      (0x001#32, Instr.permCustom), (0x101#32, .permIp), (0x201#32, .permFp), (0x301#32, .permE),
      (0x401#32, .permP), (0x501#32, .permPc1), (0x601#32, .permPc2),
      (0x002#32, .ksched .k1), (0x042#32, .ksched .k2), (0x082#32, .ksched .k3),
      (0x003#32, .feistel),
      (0x004#32, .desEnc .k1), (0x044#32, .desEnc .k2), (0x084#32, .desEnc .k3),
      (0x014#32, .desDec .k1), (0x054#32, .desDec .k2), (0x094#32, .desDec .k3),
      (0x005#32, .tdes2Enc), (0x015#32, .tdes2Dec), (0x025#32, .tdes3Enc), (0x035#32, .tdes3Dec)]

/-- R84, R78: the words that decode to Illegal are those R84 lists, and writing one to CMD, whatever
LEN and the upper half of DATA are, stores it and completes at once with IllegalCommand. -/
def Obligations.IllegalWordIsStoredAndRefused : Prop :=
  (∀ w : CmdWord, (∀ i, decodeCommand w ≠ .ok i) ↔
    (cwZero w ≠ 0 ∨ cwOp w = 0 ∨ 6 ≤ (cwOp w).toNat ∨ cwKsel w = 3 ∨ cwTsel w = 7 ∨
      (cwDir w ≠ 0 ∧ cwOp w ∈ [1#4, 2#4, 3#4]) ∨ (cwK3en w ≠ 0 ∧ cwOp w ≠ 5) ∨
      (cwKsel w ≠ 0 ∧ cwOp w ∈ [1#4, 3#4, 5#4]) ∨ (cwTsel w ≠ 0 ∧ cwOp w ≠ 1))) ∧
  ∀ (s : State) (len : LenTag) (data : Data), s.busy = false →
    (∀ i, decodeCommand (data.setWidth 32) ≠ .ok i) →
    exec (.wr 0x00 len data) s = .next (refusedState (data.setWidth 32) .illegalCommand s)

/-- R80, R86: words of the spec's own table and programs decode to what they stand for (a sanity
check). -/
def Obligations.SpecWordsDecode : Prop :=
  decodeTableWord 32 0x00000101 = some .permIp ∧
  decodeTableWord 32 0x00000082 = some (.ksched .k3) ∧
  decodeTableWord 32 0x00000003 = some .feistel ∧
  decodeTableWord 32 0x00000054 = some (.desDec .k2) ∧
  decodeTableWord 32 0x00000025 = some .tdes3Enc ∧
  decodeTableWord 32 0x000000C4 = none ∧
  decodeTableWord 88 0x10440133457799BBCDFF1 = some (.wr 0x04 0x40 0x133457799BBCDFF1) ∧
  decodeTableWord 88 0x007000000000000000000 = some (.rd 0x07)

/-- R94, R194: a command mnemonic is one WR of its command word to CMD; LEN and DATA[63:32] are
ignored. -/
def Obligations.MnemonicIsWriteOfCommandWord : Prop :=
  ∀ (i : Instr) (w : CmdWord) (s : State) (len : LenTag) (data : Data),
    encode i = .cw w → data.setWidth 32 = w → exec (.wr 0x00 len data) s = exec i s

/-! ### Agents and scheduling (00_scope.md, 45_host_transfers.md) -/

/-- R17, R190: while BUSY = 0 the host's next transaction is taken from its list and run as the
instruction it decodes to; in particular the transaction of an instruction runs that instruction. That
the host's program is a list in State is the model's choice (log entries 1 and 2). -/
def Obligations.StepRunsTheHostTransaction : Prop :=
  (∀ (s : State) (w : Ht) (rest : List HostEvent), s.busy = false → s.inputs = .xfer w :: rest →
    step s = exec (decodeHt w) { s with inputs := rest }) ∧
  ∀ (s : State) (i : Instr) (rest : List HostEvent), s.busy = false →
    s.inputs = .xfer (transactionOf i) :: rest → step s = exec i { s with inputs := rest }

/-- R17, R18, R235: with BUSY = 0 and nothing to come from outside, nothing changes (the model's
choice of what a step answers there is log entry 5). -/
def Obligations.IdleMachineKeepsItsState : Prop :=
  ∀ s : State, s.busy = false → s.inputs = [] → step s = .next s

/-- R195, R17: while BUSY = 1 a transaction other than a read of STATUS stays where it is, and the
engine steps. The two counters of the model's schedule move on (log entry 3). -/
def Obligations.BusyEngineHoldsTransactions : Prop :=
  ∀ s : State, s.busy = true →
    (s.inputs = [] ∨ ∃ w rest, s.inputs = .xfer w :: rest ∧ decodeHt w ≠ .rd 0x01) →
    step s = engineStep { s with turn := s.turn + 1, polls := 0 }

/-- R195: run while BUSY = 1, an instruction that is not a read of STATUS has no effect. That `exec`
answers the same state for it is the model's choice (log entry 5), as it is that a transaction at a
reserved index, to which R198 gives no meaning, waits like any other (log entry 10). -/
def Obligations.HeldInstructionHasNoEffect : Prop :=
  ∀ (i : Instr) (s : State), s.busy = true → i ≠ .rd 0x01 → exec i s = .next s

/-- R17, R196: while BUSY = 1 a waiting read of STATUS and the engine both have a step. The free
value says which is taken (log entry 3): the read returns the STATUS word of this very state. -/
def Obligations.BusyStatusReadInterleaves : Prop :=
  ∀ (s : State) (w : Ht) (rest : List HostEvent), s.busy = true → s.inputs = .xfer w :: rest →
    decodeHt w = .rd 0x01 →
    step s =
      if s.polls < Config.pollsBefore s.turn then .next { s with
        inputs := rest
        polls := s.polls + 1
        received := ⟨0, (statusWord s).setWidth 64⟩ :: s.received }
      else engineStep { s with turn := s.turn + 1, polls := 0 }

/-- R95, R17: WAIT reads STATUS until the value read has BUSY = 0, and is over with that read. While
BUSY = 1 it stays at the head of the list; the free value says whether it or the engine steps. -/
def Obligations.WaitPollsUntilNotBusy : Prop :=
  ∀ (s : State) (rest : List HostEvent), s.inputs = .wait :: rest →
    (s.busy = false → step s = .next { s with
      inputs := rest
      received := ⟨0, (statusWord s).setWidth 64⟩ :: s.received }) ∧
    (s.busy = true → step s =
      if s.polls < Config.pollsBefore s.turn then .next { s with
        polls := s.polls + 1
        received := ⟨0, (statusWord s).setWidth 64⟩ :: s.received }
      else engineStep { s with turn := s.turn + 1, polls := 0 })

/-- R240: reset leads from any state to the reset state; what is still to come from outside, what the
host has read, and the free schedule's index are not the engine's (log entry 8). While BUSY = 1 the
free value says whether reset or an engine step comes first (log entry 3). -/
def Obligations.ResetEventResetsEverything : Prop :=
  ∀ (s : State) (rest : List HostEvent), s.inputs = .reset :: rest →
    step s =
      if s.busy = false ∨ s.polls < Config.pollsBefore s.turn then .next { State.reset with
        inputs := rest
        received := s.received
        turn := s.turn + 1 }
      else engineStep { s with turn := s.turn + 1, polls := 0 }

/-- R39: after reset every element of R20 is zero. -/
def Obligations.ResetStateIsZero : Prop :=
  (∀ v ∈ [State.reset.opa, State.reset.opb, State.reset.key1, State.reset.key2, State.reset.key3,
    State.reset.res], v.len = 0 ∧ v.bits = 0) ∧
  (∀ i : Fin 16, State.reset.rk[i] = 0) ∧ (∀ j : Fin 64, State.reset.tbl[j] = 0) ∧
  State.reset.tblLen = 0 ∧ State.reset.cmd = 0 ∧ statusWord State.reset = 0x00000000 ∧
  State.reset.busy = false ∧ State.reset.resValid = false ∧ State.reset.rkValid = false ∧
  State.reset.err = .none ∧ State.reset.phase = .idle ∧ State.reset.round = 0 ∧
  State.reset.stage = 0 ∧ State.reset.l = 0 ∧ State.reset.r = 0 ∧ State.reset.blk = 0

/-! ### Host transactions (45_host_transfers.md, 10_state.md) -/

/-- R31, with the codes of R30 and R210: the fields of STATUS by bit, the reserved bits zero. -/
def Obligations.StatusWordFields : Prop :=
  ∀ s : State,
    (statusWord s).getLsbD 0 = s.busy ∧ (statusWord s).getLsbD 1 = s.resValid ∧
    (statusWord s).getLsbD 2 = s.rkValid ∧ (statusWord s).getLsbD 3 = false ∧
    (statusWord s).extractLsb' 4 4 = (match s.err with
      | .none => 0
      | .invalidBlockLength => 1
      | .invalidKeyLength => 2
      | .invalidHexLength => 3
      | .invalidHexDigit => 4
      | .invalidTableIndex => 5
      | .illegalCommand => 6) ∧
    (statusWord s).extractLsb' 8 3 = (match s.phase with
      | .idle => 0
      | .init => 1
      | .permuted => 2
      | .round => 3
      | .swapped => 4
      | .final => 5) ∧
    (statusWord s).extractLsb' 11 5 = s.round ∧ (statusWord s).extractLsb' 16 2 = s.stage ∧
    (statusWord s).extractLsb' 18 14 = 0

/-- R197: what a read of each register returns. It changes no register. -/
def Obligations.ReadReturnsTheRegister : Prop :=
  ∀ s : State,
    (exec (.rd 0x01) s = .next { s with
      received := ⟨0, (statusWord s).setWidth 64⟩ :: s.received }) ∧
    (s.busy = false →
      (exec (.rd 0x00) s = .next { s with received := ⟨0, s.cmd.setWidth 64⟩ :: s.received }) ∧
      (exec (.rd 0x02) s = .next { s with received := ⟨s.opa.len, s.opa.bits⟩ :: s.received }) ∧
      (exec (.rd 0x03) s = .next { s with received := ⟨s.opb.len, s.opb.bits⟩ :: s.received }) ∧
      (exec (.rd 0x04) s = .next { s with received := ⟨s.key1.len, s.key1.bits⟩ :: s.received }) ∧
      (exec (.rd 0x05) s = .next { s with received := ⟨s.key2.len, s.key2.bits⟩ :: s.received }) ∧
      (exec (.rd 0x06) s = .next { s with received := ⟨s.key3.len, s.key3.bits⟩ :: s.received }) ∧
      (exec (.rd 0x07) s = .next { s with received := ⟨s.res.len, s.res.bits⟩ :: s.received }) ∧
      (exec (.rd 0x08) s = .next { s with received := ⟨0, s.tblLen.setWidth 64⟩ :: s.received }) ∧
      (∀ i : Fin 16, exec (.rd (BitVec.ofNat 8 (0x10 + i.val))) s =
        .next { s with received := ⟨48, s.rk[i].setWidth 64⟩ :: s.received }) ∧
      (∀ j : Fin 64, exec (.rd (BitVec.ofNat 8 (0x40 + j.val))) s =
        .next { s with received := ⟨0, s.tbl[j].setWidth 64⟩ :: s.received }))

/-- R198: a transaction at a reserved index is refused, in the model when it would take effect (log
entry 10); no well-formed instruction is refused or faults (R191, R194, R197, R199). While BUSY = 1 the
next state of a held one is the same state (R195), which is the model's choice (log entry 5). -/
def Obligations.OnlyReservedIndicesAreRefused : Prop :=
  (∀ (idx : RegIdx) (len : LenTag) (data : Data) (s : State), s.busy = false →
    ((0x09 ≤ idx.toNat ∧ idx.toNat ≤ 0x0F) ∨ (0x20 ≤ idx.toNat ∧ idx.toNat ≤ 0x3F) ∨
      0x80 ≤ idx.toNat) →
    exec (.wr idx len data) s = .refused (.reservedIndex idx) ∧
    exec (.rd idx) s = .refused (.reservedIndex idx)) ∧
  ∀ (i : Instr) (s : State), WellFormed i = true → ∃ t, exec i s = .next t

/-- R192: a write of OPA, OPB, KEY1, KEY2 or KEY3 stores LEN, and DATA with the bits at and above LEN
cleared where LEN ≤ 64, DATA as it is where LEN > 64; nothing else changes. -/
def Obligations.VectorWriteStoresLengthAndData : Prop :=
  ∀ (s : State) (len : LenTag) (data : Data), s.busy = false →
    ∃ v : VecReg, v.len = len ∧
      (len.toNat ≤ 64 → ∀ b, b < 64 → v.bits.getLsbD b = (decide (b < len.toNat) && data.getLsbD b)) ∧
      (64 < len.toNat → v.bits = data) ∧
      exec (.wr 0x02 len data) s = .next { s with opa := v } ∧
      exec (.wr 0x03 len data) s = .next { s with opb := v } ∧
      exec (.wr 0x04 len data) s = .next { s with key1 := v } ∧
      exec (.wr 0x05 len data) s = .next { s with key2 := v } ∧
      exec (.wr 0x06 len data) s = .next { s with key3 := v }

/-- R191: a write of TBL_LEN or TBL[j] stores DATA[7:0], whatever its value, and nothing else
changes. -/
def Obligations.TableWriteStoresLowByte : Prop :=
  ∀ (s : State) (len : LenTag) (data : Data), s.busy = false →
    (exec (.wr 0x08 len data) s = .next { s with tblLen := data.extractLsb' 0 8 }) ∧
    ∀ j : Fin 64, ∃ tbl : Vector (BitVec 8) 64,
      exec (.wr (BitVec.ofNat 8 (0x40 + j.val)) len data) s = .next { s with tbl := tbl } ∧
      tbl[j] = data.extractLsb' 0 8 ∧ ∀ k : Fin 64, k ≠ j → tbl[k] = s.tbl[k]

/-- R199: a write of STATUS, RES or RK[i] has no effect on any state and raises nothing. -/
def Obligations.ReadOnlyWriteHasNoEffect : Prop :=
  ∀ (idx : RegIdx) (len : LenTag) (data : Data) (s : State),
    (idx = 0x01 ∨ idx = 0x07 ∨ (0x10 ≤ idx.toNat ∧ idx.toNat ≤ 0x1F)) →
    exec (.wr idx len data) s = .next s

/-- R191, R192, R197, R57: the frame of the two bus operations where the register is not CMD. A write
changes the one register its index names; a read changes only what the host has received. -/
def Obligations.TransferFrame : Prop :=
  (∀ (idx : RegIdx) (len : LenTag) (data : Data) (s t : State), idx ≠ 0x00 →
    exec (.wr idx len data) s = .next t →
    t = { s with opa := t.opa, opb := t.opb, key1 := t.key1, key2 := t.key2, key3 := t.key3,
                 tbl := t.tbl, tblLen := t.tblLen } ∧
    (idx ≠ 0x02 → t.opa = s.opa) ∧ (idx ≠ 0x03 → t.opb = s.opb) ∧ (idx ≠ 0x04 → t.key1 = s.key1) ∧
    (idx ≠ 0x05 → t.key2 = s.key2) ∧ (idx ≠ 0x06 → t.key3 = s.key3) ∧
    (idx ≠ 0x08 → t.tblLen = s.tblLen) ∧
    ∀ j : Fin 64, idx ≠ BitVec.ofNat 8 (0x40 + j.val) → t.tbl[j] = s.tbl[j]) ∧
  ∀ (idx : RegIdx) (s t : State), exec (.rd idx) s = .next t →
    t = { s with received := t.received }

/-! ### Commands: validation and the error (40 to 44, 60_exceptions.md) -/

/-- R109: the validation of the seven PERM commands, the checks in order; a refused command leaves
what R213 says, an accepted one what R194 says. -/
def Obligations.PermValidation : Prop :=
  (∀ s : State, s.busy = false →
    exec .permCustom s = .next (
      if 64 < s.tblLen.toNat then refusedState 0x001 .illegalCommand s
      else if 64 < s.opa.len.toNat then refusedState 0x001 .invalidBlockLength s
      else if ∃ j : Fin 64, j.val < s.tblLen.toNat ∧
        (s.tbl[j].toNat < 1 ∨ s.opa.len.toNat < s.tbl[j].toNat) then
        refusedState 0x001 .invalidTableIndex s
      else acceptedState 0x001 0 s.blk s)) ∧
  PermChecks .permIp 0x101 ipTable ∧ PermChecks .permFp 0x201 fpTable ∧
  PermChecks .permE 0x301 eTable ∧ PermChecks .permP 0x401 pTable ∧
  PermChecks .permPc1 0x501 pc1Table ∧ PermChecks .permPc2 0x601 pc2Table

/-- R127: KSCHED k raises InvalidKeyLength where the slot's length is not 64, and is accepted
otherwise. -/
def Obligations.KeyScheduleValidation : Prop :=
  ∀ s : State, s.busy = false →
    (exec (.ksched .k1) s = .next (
      if s.key1.len ≠ 64 then refusedState 0x002 .invalidKeyLength s
      else acceptedState 0x002 0 s.blk s)) ∧
    (exec (.ksched .k2) s = .next (
      if s.key2.len ≠ 64 then refusedState 0x042 .invalidKeyLength s
      else acceptedState 0x042 0 s.blk s)) ∧
    (exec (.ksched .k3) s = .next (
      if s.key3.len ≠ 64 then refusedState 0x082 .invalidKeyLength s
      else acceptedState 0x082 0 s.blk s))

/-- R143: FEISTEL checks OPA first, then OPB. -/
def Obligations.FeistelValidation : Prop :=
  ∀ s : State, s.busy = false →
    exec .feistel s = .next (
      if s.opa.len ≠ 32 then refusedState 0x003 .invalidBlockLength s
      else if s.opb.len ≠ 48 then refusedState 0x003 .invalidKeyLength s
      else acceptedState 0x003 0 s.blk s)

/-- R158: DES.ENC and DES.DEC check the block, then the selected key. -/
def Obligations.DesValidation : Prop :=
  DesChecks (.desEnc .k1) 0x004 .k1 ∧ DesChecks (.desEnc .k2) 0x044 .k2 ∧
  DesChecks (.desEnc .k3) 0x084 .k3 ∧ DesChecks (.desDec .k1) 0x014 .k1 ∧
  DesChecks (.desDec .k2) 0x054 .k2 ∧ DesChecks (.desDec .k3) 0x094 .k3

/-- R178: the TDES commands check the block, then KEY1, KEY2 and, in three-key mode only, KEY3. -/
def Obligations.TdesValidation : Prop :=
  TdesChecks .tdes2Enc 0x005 false ∧ TdesChecks .tdes2Dec 0x015 false ∧
  TdesChecks .tdes3Enc 0x025 true ∧ TdesChecks .tdes3Dec 0x035 true

/-- R213, R194, R26, R33: the frame of the fifteen commands' own step. Besides the fields `raise` and
acceptance name, nothing changes; BLK takes OPA's bits where a DES or TDES command is accepted. -/
def Obligations.CommandFrame : Prop :=
  ∀ (i : Instr) (w : CmdWord) (s t : State), encode i = .cw w → exec i s = .next t →
    t = { s with cmd := t.cmd, resValid := t.resValid, err := t.err, busy := t.busy,
                 phase := t.phase, round := t.round, stage := t.stage, blk := t.blk } ∧
    (t.blk ≠ s.blk → IsCipher w ∧ t.busy = true ∧ t.blk = s.opa.bits)

/-! ### Commands: results (40 to 44) -/

/-- R110: the seven PERM commands, accepted and carried out. -/
def Obligations.PermResult : Prop :=
  PermRuns .permCustom 0x001 (fun s => s.tblLen.toNat)
    (fun s => (s.tbl.toList.take s.tblLen.toNat).map BitVec.toNat) ∧
  PermRuns .permIp 0x101 (fun _ => 64) (fun _ => ipTable) ∧
  PermRuns .permFp 0x201 (fun _ => 64) (fun _ => fpTable) ∧
  PermRuns .permE 0x301 (fun _ => 48) (fun _ => eTable) ∧
  PermRuns .permP 0x401 (fun _ => 32) (fun _ => pTable) ∧
  PermRuns .permPc1 0x501 (fun _ => 56) (fun _ => pc1Table) ∧
  PermRuns .permPc2 0x601 (fun _ => 48) (fun _ => pc2Table)

/-- R128: KSCHED k, accepted and carried out: RK gets the sixteen round keys, RES is untouched. The
round keys are those of R121 to R123, for the key of R128's example too. -/
def Obligations.KeyScheduleResult : Prop :=
  (∀ (s : State) (k : KeySlot) (w : CmdWord), encode (.ksched k) = .cw w → s.busy = false →
    (keyslot s k).len = 64 →
    exec (.ksched k) s = .next (acceptedState w 0 s.blk s) ∧
    CompletesIn 1 (acceptedState w 0 s.blk s) { s with
      cmd := w
      err := .none
      resValid := false
      rkValid := true
      busy := false
      phase := .final
      round := 0
      stage := 0
      rk := ksched (keyslot s k).bits }) ∧
  (∀ key : Block, RoundKeys key (ksched key)) ∧
  (ksched 0x133457799BBCDFF1)[0] = 0x1B02EFFC7072 ∧
  (ksched 0x133457799BBCDFF1)[15] = 0xCB3D8B0E17F5

/-- R144: FEISTEL, accepted and carried out. Its function is that of R136 to R139, and has the values
of R139's and R144's examples. -/
def Obligations.FeistelResult : Prop :=
  (∀ s : State, s.busy = false → s.opa.len = 32 → s.opb.len = 48 →
    exec .feistel s = .next (acceptedState 0x003 0 s.blk s) ∧
    CompletesIn 1 (acceptedState 0x003 0 s.blk s) (resultState 0x003
      ⟨32, (feistel (s.opa.bits.extractLsb' 0 32) (s.opb.bits.extractLsb' 0 48)).setWidth 64⟩ s)) ∧
  (∀ (r : Half) (k : RoundKey), RoundFunction r k (feistel r k)) ∧
  feistel 0xF0AAF0AA 0x1B02EFFC7072 = 0x234AA9BB ∧ feistel 0 0 = 0xD8D8DBBC ∧
  feistel 0xFFFFFFFF 0 = 0x38DBF9CB

/-- R165: DES.ENC k and DES.DEC k take exactly nineteen engine steps and leave des(OPA, key, dir) in
RES and the key's schedule in RK. -/
def Obligations.DesCommandComputesDes : Prop :=
  DesRuns (.desEnc .k1) 0x004 .k1 .encrypt ∧ DesRuns (.desEnc .k2) 0x044 .k2 .encrypt ∧
  DesRuns (.desEnc .k3) 0x084 .k3 .encrypt ∧ DesRuns (.desDec .k1) 0x014 .k1 .decrypt ∧
  DesRuns (.desDec .k2) 0x054 .k2 .decrypt ∧ DesRuns (.desDec .k3) 0x094 .k3 .decrypt

/-- R182, R177, R180: the four TDES commands take exactly fifty-nine engine steps and leave tdes(...)
in RES and the schedule of stage 3's key in RK. In two-key mode KEY3 is not looked at. -/
def Obligations.TdesCommandComputesTdes : Prop :=
  TdesRuns .tdes2Enc 0x005 State.key1 State.key2 State.key1 .encrypt
    (fun s => tdes s.opa.bits s.key1.bits s.key2.bits none .encrypt) ∧
  TdesRuns .tdes2Dec 0x015 State.key1 State.key2 State.key1 .decrypt
    (fun s => tdes s.opa.bits s.key1.bits s.key2.bits none .decrypt) ∧
  TdesRuns .tdes3Enc 0x025 State.key1 State.key2 State.key3 .encrypt
    (fun s => tdes s.opa.bits s.key1.bits s.key2.bits (some s.key3.bits) .encrypt) ∧
  TdesRuns .tdes3Dec 0x035 State.key3 State.key2 State.key1 .decrypt
    (fun s => tdes s.opa.bits s.key1.bits s.key2.bits (some s.key3.bits) .decrypt)

/-- R60, R195, R96: a read of RES issued after DES.ENC k is held until the command completes, and
returns its result. -/
def Obligations.ReadAfterDesReturnsItsResult : Prop :=
  ∀ (s : State) (k : KeySlot) (rest : List HostEvent), s.busy = false → s.opa.len = 64 →
    (keyslot s k).len = 64 →
    s.inputs = .xfer (transactionOf (.desEnc k)) :: .xfer (transactionOf (.rd 0x07)) :: rest →
    ∃ t, Host.Core.run Sys2Proof.core 21 s = .next t ∧ t.inputs = rest ∧
      t.received = ⟨64, des s.opa.bits (keyslot s k).bits .encrypt⟩ :: s.received

/-! ### The engine -/

/-- R110, R128, R144, R160 to R163, R179, R33, R34: the frame of an engine step, by operation. -/
def Obligations.EngineStepFrame : Prop :=
  ∀ s t : State, engineStep s = .next t →
    ((cwOp s.cmd = 1 ∨ cwOp s.cmd = 3) →
      t = { s with res := t.res, resValid := t.resValid, phase := t.phase, busy := t.busy }) ∧
    (cwOp s.cmd = 2 →
      t = { s with rk := t.rk, rkValid := t.rkValid, phase := t.phase, busy := t.busy }) ∧
    (IsCipher s.cmd →
      t = { s with rk := t.rk, rkValid := t.rkValid, l := t.l, r := t.r, blk := t.blk, res := t.res,
                   resValid := t.resValid, phase := t.phase, round := t.round, stage := t.stage,
                   busy := t.busy })

/-- R247: no command, given as its mnemonic or as a write to CMD, and no engine step writes OPA, OPB,
KEY1, KEY2, KEY3, TBL or TBL_LEN. -/
def Obligations.OperandsAreNeverWritten : Prop :=
  (∀ (i : Instr) (w : CmdWord) (s t : State), encode i = .cw w → exec i s = .next t →
    SameOperands s t) ∧
  (∀ (len : LenTag) (data : Data) (s t : State), exec (.wr 0x00 len data) s = .next t →
    SameOperands s t) ∧
  ∀ s t : State, engineStep s = .next t → SameOperands s t

/-- R27: RK is written only by KSCHED's execute step and by the Init → Permuted step of a DES stage. -/
def Obligations.RoundKeysHaveTwoWriters : Prop :=
  (∀ (i : Instr) (s t : State), exec i s = .next t → t.rk = s.rk) ∧
  ∀ s t : State, engineStep s = .next t → t.rk ≠ s.rk →
    s.phase = .init ∧ (cwOp s.cmd = 2 ∨ IsCipher s.cmd) ∧ t.rkValid = true

/-- R27, R32: no step but a reset clears RK_VALID. -/
def Obligations.OnlyResetClearsRkValid : Prop :=
  ∀ s t : State, (∀ rest, s.inputs ≠ .reset :: rest) → step s = .next t → s.rkValid = true →
    t.rkValid = true

/-- R211: codes 3 and 4 are never written to STATUS.ERR: no step puts one there. They belong to the
host's conversion, and where it fails, for LDHEX or for the literal of LD (R93, R95), no transaction is
issued. -/
def Obligations.HexErrorsNeverReachErr : Prop :=
  (∀ s t : State, step s = .next t → t.err = .invalidHexLength ∨ t.err = .invalidHexDigit →
    t.err = s.err) ∧
  (∀ (reg : Reg) (digits : List Char) (width : Nat) (e : ErrCode),
    hexToBits digits width = .error e →
    (e = .invalidHexLength ∨ e = .invalidHexDigit) ∧
    assemble (.ldhex reg digits width) = .error (.hex e)) ∧
  ∀ (reg : Reg) (digits : List Char) (e : ErrCode),
    hexToBits digits (4 * digits.length) = .error e →
    e = .invalidHexDigit ∧ assemble (.ld reg digits) = .error (.hex .invalidHexDigit)

/-- R250: within a command STAGE, PHASE and ROUND only move forward. -/
def Obligations.EngineStepsMoveForward : Prop :=
  ∀ s t : State, engineStep s = .next t → progress s < progress t

/-- R37: the result of a command, RES or RK, is a function of the command and of the operand registers
it names; what earlier commands left behind does not influence it, nor its error. -/
def Obligations.ResultDependsOnOperandsOnly : Prop :=
  ∀ (i : Instr) (w : CmdWord) (s s' u u' v v' : State) (n : Nat), encode i = .cw w →
    s.busy = false → s'.busy = false → NamedOperands i s s' →
    exec i s = .next u → exec i s' = .next u' →
    engineRun n u = .next v → engineRun n u' = .next v' →
    u.err = u'.err ∧ v.busy = v'.busy ∧ v.phase = v'.phase ∧ v.round = v'.round ∧
    v.stage = v'.stage ∧ v.resValid = v'.resValid ∧ (v.resValid = true → v.res = v'.res) ∧
    (u.busy = true → v.busy = false → cwOp w = 2 ∨ IsCipher w →
      v.rk = v'.rk ∧ v.rkValid = true ∧ v'.rkValid = true)

/-! ### Invariants (10_state.md R38, 00_scope.md R19) -/

/-- R38: every step keeps the invariant, from every state that meets it. -/
def Obligations.EveryStepKeepsTheInvariant : Prop :=
  ∀ s t : State, Inv s → step s = .next t → Inv t

/-- R39: the reset state meets the invariant, whatever is to come from outside. -/
def Obligations.ResetMeetsTheInvariant : Prop :=
  ∀ events : List HostEvent, Inv { State.reset with inputs := events }

/-- R38: the eight clauses hold in every reachable state. -/
def Obligations.ReachableStatesObeyTheRules : Prop := ∀ s : State, Reachable s → StateRules s

/-- R19, R212: after a command is accepted no engine step can fail. -/
def Obligations.AcceptedCommandNeverStops : Prop :=
  ∀ s : State, Inv s → s.busy = true → ∃ t, engineStep s = .next t

/-- R19, R252: every command in progress is over after at most fifty-nine engine steps, without an
error. -/
def Obligations.EveryCommandTerminates : Prop :=
  ∀ s : State, Inv s → s.busy = true →
    ∃ n t, n ≤ 59 ∧ engineRun n s = .next t ∧ t.busy = false ∧ t.phase = .final ∧ t.err = .none

/-- R242, R109: from reset DES, TDES and FEISTEL raise InvalidBlockLength, KSCHED raises
InvalidKeyLength, the six PERM commands of a fixed table raise InvalidTableIndex, and PERM.CUSTOM gives
the empty vector. -/
def Obligations.NothingSucceedsFromResetButEmptyPerm : Prop :=
  (∀ i ∈ [Instr.feistel, .desEnc .k1, .desEnc .k2, .desEnc .k3, .desDec .k1, .desDec .k2,
      .desDec .k3, .tdes2Enc, .tdes2Dec, .tdes3Enc, .tdes3Dec],
    exec i State.reset = .next (refusedState (wordOf i) .invalidBlockLength State.reset)) ∧
  (∀ k, exec (.ksched k) State.reset =
    .next (refusedState (wordOf (.ksched k)) .invalidKeyLength State.reset)) ∧
  (∀ i ∈ [Instr.permIp, .permFp, .permE, .permP, .permPc1, .permPc2],
    exec i State.reset = .next (refusedState (wordOf i) .invalidTableIndex State.reset)) ∧
  ∃ u, exec .permCustom State.reset = .next u ∧
    CompletesIn 1 u (resultState 0x001 ⟨0, 0⟩ State.reset)

/-! ### The functions (40 to 44) -/

/-- R100: `permute` fails exactly where an entry is below 1 or above the input length, and else
`output[i] = input[table[i] - 1]`. -/
def Obligations.PermuteContract : Prop :=
  ∀ (n : Nat) (v : BitVec n) (t : Table),
    ((∃ k ∈ t, k < 1 ∨ n < k) → permute v t = .error .invalidTableIndex) ∧
    ((∀ k ∈ t, 1 ≤ k ∧ k ≤ n) → ∃ out : BitVec t.length, permute v t = .ok out ∧
      ∀ i (h : i < t.length), out.getMsbD i = v.getMsbD (t[i] - 1))

/-- R108 (a): `permute` is linear. -/
def Obligations.PermuteIsLinear : Prop :=
  ∀ (n : Nat) (a b : BitVec n) (t : Table) (x y : BitVec t.length),
    permute a t = .ok x → permute b t = .ok y → permute (a ^^^ b) t = .ok (x ^^^ y)

/-- R108 (b): IP and FP undo each other on every block. -/
def Obligations.FinalPermutationInvertsInitial : Prop :=
  ∀ v : Block, gather 64 fpTable (gather 64 ipTable v) = v ∧
    gather 64 ipTable (gather 64 fpTable v) = v

/-- R124 (a), (d): the rotations of all sixteen rounds give a half back. -/
def Obligations.RotationsReturnToStart : Prop :=
  ∀ c : KeyHalf, shifts.foldl rotl c = c

/-- R124 (c): keys that differ only at positions 8, 16, ..., 64 have the same round keys. -/
def Obligations.KeyScheduleIgnoresParity : Prop :=
  ∀ a b : Block, (∀ p, 1 ≤ p → p ≤ 64 → p % 8 ≠ 0 → pos a p = pos b p) → ksched a = ksched b

/-- R140 (a): complementing both inputs of `feistel` changes nothing; it depends on them only through
E(R) xor K. -/
def Obligations.FeistelSeesOnlyTheXor : Prop :=
  (∀ (r r' : Half) (k k' : RoundKey),
    gather 48 eTable r ^^^ k = gather 48 eTable r' ^^^ k' → feistel r k = feistel r' k') ∧
  ∀ (r : Half) (k : RoundKey), feistel (~~~r) (~~~k) = feistel r k

/-- R153 to R157: `des` is IP, sixteen rounds with the round keys in their order or reversed, and FP of
R_16 ‖ L_16; it has the value of R157's example. -/
def Obligations.DesIsSixteenRounds : Prop :=
  (∀ (block key : Block) (dir : Dir),
    SixteenRounds block (ksched key) dir (des block key dir)) ∧
  des 0x0123456789ABCDEF 0x133457799BBCDFF1 .encrypt = 0x85E813540F0AB405

/-- R166 (a): decryption undoes encryption and encryption undoes decryption. -/
def Obligations.DecryptionInvertsEncryption : Prop :=
  ∀ p k : Block, des (des p k .encrypt) k .decrypt = p ∧ des (des p k .decrypt) k .encrypt = p

/-- R166 (b): the decryption trace is the encryption trace backwards. -/
def Obligations.DecryptionTraceMirrorsEncryption : Prop :=
  ∀ (p k : Block) (i : Nat), i ≤ 16 →
    desHalves .decrypt (ksched k) (desStart (des p k .encrypt)) i =
      (desHalves .encrypt (ksched k) (desStart p) (16 - i)).swap

/-- R166 (c): the complementation property. -/
def Obligations.DesCommutesWithComplement : Prop :=
  ∀ (p k : Block) (dir : Dir), des (~~~p) (~~~k) dir = ~~~(des p k dir)

/-- R180: `tdes` is three uses of `des`, the keys and directions in their order; key3 is key1 where it
is absent. It has the value of R178's example. -/
def Obligations.TripleDesIsThreeDes : Prop :=
  (∀ (x k1 k2 : Block) (key3 : Option Block), ∃ k3 : Block,
    (key3 = none → k3 = k1) ∧ (∀ k, key3 = some k → k3 = k) ∧
    tdes x k1 k2 key3 .encrypt = des (des (des x k1 .encrypt) k2 .decrypt) k3 .encrypt ∧
    tdes x k1 k2 key3 .decrypt = des (des (des x k3 .decrypt) k2 .encrypt) k1 .decrypt) ∧
  tdes 0x5468652071756663 0x0123456789ABCDEF 0x23456789ABCDEF01 (some 0x456789ABCDEF0123)
    .encrypt = 0xA826FD8CE53B855F

/-- R181 (a): triple decryption undoes triple encryption, and the other way round, with two keys or
three. -/
def Obligations.TripleDecryptionInvertsEncryption : Prop :=
  ∀ (p k1 k2 : Block) (k3 : Option Block),
    tdes (tdes p k1 k2 k3 .encrypt) k1 k2 k3 .decrypt = p ∧
    tdes (tdes p k1 k2 k3 .decrypt) k1 k2 k3 .encrypt = p

/-- R181 (b), (c): with equal keys triple DES is single DES; key3 equal to key1 is two-key mode. -/
def Obligations.TripleDesDegenerates : Prop :=
  (∀ (x k : Block) (dir : Dir), tdes x k k none dir = des x k dir ∧
    tdes x k k (some k) dir = des x k dir) ∧
  ∀ (x k1 k2 : Block) (dir : Dir), tdes x k1 k2 (some k1) dir = tdes x k1 k2 none dir

/-! ### The hexadecimal boundary (20_memory.md, 30_encoding.md) -/

/-- R66: the round trips of the hexadecimal conversions and their limit. -/
def Obligations.HexRoundTrip : Prop :=
  (∀ s : List Char, (∀ c ∈ s, (hexValue c).isSome) →
    ∃ v, hexToBits s (4 * s.length) = .ok v ∧ bitsToHex v = s.map Char.toUpper) ∧
  (∀ (n : Nat) (v : BitVec n), n % 4 = 0 → hexToBits (bitsToHex v) n = .ok v) ∧
  ∀ (n : Nat) (v : BitVec n), n % 4 ≠ 0 → hexToBits (bitsToHex v) n = .error .invalidHexLength

/-- R65, R93, R95: `LD reg, h"..."` is one `WR reg, n, x` with the literal's length n and number x, and
so is LDHEX with the width n, for every register and every n and x a transaction can carry (n below 256,
x below 2^64). With BUSY = 0 it leaves OPA, OPB, KEY1, KEY2 or KEY3 with (n, x). -/
def Obligations.LoadLiteralHoldsItsVector : Prop :=
  ∀ (digits : List Char) (v : BitVec (4 * digits.length)),
    hexToBits digits (4 * digits.length) = .ok v → 4 * digits.length < 2 ^ 8 → v.toNat < 2 ^ 64 →
    ∃ w : Reg → Ht,
      (∀ reg : Reg, assemble (.ld reg digits) = .ok [.xfer (w reg)] ∧
        assemble (.ldhex reg digits (4 * digits.length)) = .ok [.xfer (w reg)] ∧
        decodeHt (w reg) =
          .wr (regIdx reg) (BitVec.ofNat 8 (4 * digits.length)) (BitVec.ofNat 64 v.toNat)) ∧
      ∀ s : State, s.busy = false → ∃ x : VecReg,
        x.len.toNat = 4 * digits.length ∧ x.bits.toNat = v.toNat ∧
        exec (decodeHt (w .opa)) s = .next { s with opa := x } ∧
        exec (decodeHt (w .opb)) s = .next { s with opb := x } ∧
        exec (decodeHt (w .key1)) s = .next { s with key1 := x } ∧
        exec (decodeHt (w .key2)) s = .next { s with key2 := x } ∧
        exec (decodeHt (w .key3)) s = .next { s with key3 := x }
end

