-- ==== Sys2Proof/Laws/Asm.lean ====
section
/-!
SUPPORT. All that loading a hexadecimal literal can assemble to (20_memory.md R65; 30_encoding.md R95).
-/
namespace Sys2Proof.Machine

/-- Where the conversion fails its error is reported and nothing is issued. -/
theorem asmLoadHex_error {reg : Reg} {s : List Char} {width : Nat} {e : ErrCode}
    (h : hexToBits s width = .error e) : asmLoadHex reg s width = .error (.hex e) := by
  simp [asmLoadHex, h]

/-- A vector whose length and number a transaction can carry is one WR. -/
theorem asmLoadHex_ok {reg : Reg} {s : List Char} {width : Nat} {v : BitVec width}
    (h : hexToBits s width = .ok v) (hw : width < 2 ^ 8) (hv : v.toNat < 2 ^ 64) :
    asmLoadHex reg s width =
      .ok [.xfer (htOf 1 (regIdx reg) (BitVec.ofNat 8 width) (v.setWidth 64))] := by
  simp only [asmLoadHex, h]
  exact if_pos ⟨hw, hv⟩

/-- A vector that does not fit a transaction is refused by name (log entry 12). -/
theorem asmLoadHex_tooLong {reg : Reg} {s : List Char} {width : Nat} {v : BitVec width}
    (h : hexToBits s width = .ok v) (hw : ¬ (width < 2 ^ 8 ∧ v.toNat < 2 ^ 64)) :
    asmLoadHex reg s width = .error .tooLong := by
  simp only [asmLoadHex, h]
  exact if_neg hw

end Sys2Proof.Machine
end

