-- ==== Sys2Proof/Laws/Bits.lean ====
section
/-!
SUPPORT. The bits of `ofIdx`, `gather` and `permute` by index from the left (00_scope.md R11, R13;
40_permutation_engine.md R100).
-/
namespace Sys2Proof.Machine

/-- `ofIdx m f` has `f j` at every index below m. -/
@[simp] theorem idx_ofIdx (m : Nat) (f : Nat → Bool) (j : Nat) :
    idx (ofIdx m f) j = (decide (j < m) && f j) := by
  induction m generalizing j with
  | zero => simp [idx, ofIdx]
  | succ m ih =>
    simp only [idx, ofIdx, BitVec.getMsbD_concat] at ih ⊢
    by_cases h : j < m
    · simp [h, Nat.lt_succ_of_lt h, ih]
    · by_cases h2 : j = m
      · subst h2; simp
      · have h3 : ¬ j < m + 1 := by omega
        simp [h, h2, h3]

/-- Two vectors with the same bit at every index are equal. -/
theorem ext_idx {n : Nat} {v w : BitVec n} (h : ∀ j, j < n → idx v j = idx w j) : v = w :=
  BitVec.eq_of_getMsbD_eq fun j hj => h j hj

/-- R100: `out.idx(i) = input.pos(table[i])`. -/
@[simp] theorem idx_gather {n : Nat} (m : Nat) (t : Table) (v : BitVec n) (i : Nat) :
    idx (gather m t v) i = (decide (i < m) && pos v (t.getD i 0)) := idx_ofIdx _ _ _

/-- R100 by `getMsbD`: the bit at index j is the input's bit at the position the entry names. -/
theorem getMsbD_gather {n m : Nat} (t : Table) (v : BitVec n) {j : Nat} (h : j < m) :
    (gather m t v).getMsbD j = v.getMsbD (t.getD j 0 - 1) := by
  simpa [idx, pos, h] using idx_gather m t v j

/-- A table passes the check of R100 exactly when every entry is between 1 and the input length. -/
theorem tableFits_iff (t : Table) (n : Nat) :
    tableFits t n = true ↔ ∀ k ∈ t, 1 ≤ k ∧ k ≤ n := by
  simp [tableFits]

/-- What `permute` answers (R100). -/
theorem permute_eq_ok {n : Nat} {v : BitVec n} {t : Table} (h : tableFits t n = true) :
    permute v t = .ok (gather t.length t v) := if_pos h

/-- What `permute` answers where an entry is out of range (R100). -/
theorem permute_eq_error {n : Nat} {v : BitVec n} {t : Table} (h : tableFits t n = false) :
    permute v t = .error .invalidTableIndex := if_neg (by simp [h])

end Sys2Proof.Machine
end

