-- ==== Sys2Proof/Laws/Decode.lean ====
section
/-!
SUPPORT. The register map (10_state.md R21) and the fields of an assembled word (30_encoding.md R76).
-/
namespace Sys2Proof

/-- The indices with no register are the reserved ones (45_host_transfers.md R198). -/
theorem regAt_eq_none_iff : ∀ i : RegIdx, regAt i = none ↔ reservedIndex i = true := by decide +kernel

/-- Every register is found at its index. -/
theorem regAt_regIdx (x : Reg) : regAt (regIdx x) = some x := by
  cases x with
  | rk i => revert i; decide
  | tbl j => revert j; decide
  | _ => rfl

/-- A register stands at one index only. -/
theorem regIdx_of_regAt : ∀ i : RegIdx, ∀ x ∈ regAt i, regIdx x = i := by decide +kernel

/-! ### The fields of an assembled command word (R76) -/

/-- The fields of a command word are the ones it was assembled from, and ZERO is 0. -/
theorem fields_cwOf : ∀ (op : BitVec 4) (dir k3en : BitVec 1) (ksel : BitVec 2) (tsel : BitVec 3),
    cwOp (cwOf op dir k3en ksel tsel) = op ∧ cwDir (cwOf op dir k3en ksel tsel) = dir ∧
    cwK3en (cwOf op dir k3en ksel tsel) = k3en ∧ cwKsel (cwOf op dir k3en ksel tsel) = ksel ∧
    cwTsel (cwOf op dir k3en ksel tsel) = tsel ∧ cwZero (cwOf op dir k3en ksel tsel) = 0 := by
  decide +kernel

/-! ### The fields of an assembled transaction (R86) -/

section
variable (we : BitVec 1) (i : RegIdx) (len : LenTag) (data : Data)

/-- Bit j of an assembled transaction, field by field from bit 0. -/
theorem getLsbD_htOf (j : Nat) : (htOf we i len data).getLsbD j =
    if j < 64 then data.getLsbD j
    else if j < 72 then len.getLsbD (j - 64)
    else if j < 80 then i.getLsbD (j - 72)
    else we.getLsbD (j - 80) := by
  have h : (htOf we i len data).getLsbD j =
      BitVec.getLsbD (w := 1 + 8 + 8 + 64) (we ++ i ++ len ++ data) j := rfl
  rw [h, BitVec.getLsbD_append, BitVec.getLsbD_append, BitVec.getLsbD_append]
  by_cases h1 : j < 64
  · simp [h1]
  · by_cases h2 : j < 72
    · have : j - 64 < 8 := by omega
      simp [h1, h2, this]
    · have h3 : ¬ j - 64 < 8 := by omega
      by_cases h4 : j < 80
      · have h5 : j - 72 < 8 := by omega
        have h6 : j - 64 - 8 = j - 72 := by omega
        rw [if_neg h1, if_neg h3, h6, if_pos h5, if_neg h1, if_neg h2, if_pos h4]
      · have h5 : ¬ j - 64 - 8 < 8 := by omega
        have h6 : j - 64 - 8 - 8 = j - 80 := by omega
        simp [h1, h2, h3, h4, h5, h6]

theorem we_htOf : (htOf we i len data).getLsbD 80 = we.getLsbD 0 := by
  rw [getLsbD_htOf]; rfl

@[simp] theorem index_htOf : (htOf we i len data).extractLsb' 72 8 = i := by
  refine BitVec.eq_of_getLsbD_eq fun j hj => ?_
  have h1 : ¬ 72 + j < 64 := by omega
  have h2 : 72 + j < 80 := by omega
  simp [getLsbD_htOf, hj, h1, h2]

@[simp] theorem len_htOf : (htOf we i len data).extractLsb' 64 8 = len := by
  refine BitVec.eq_of_getLsbD_eq fun j hj => ?_
  have h2 : 64 + j < 72 := by omega
  simp [getLsbD_htOf, hj, h2]

@[simp] theorem data_htOf : (htOf we i len data).extractLsb' 0 64 = data := by
  refine BitVec.eq_of_getLsbD_eq fun j hj => ?_
  simp [getLsbD_htOf, hj]

/-- An assembled write decodes to itself. -/
@[simp] theorem decodeHt_write : decodeHt (htOf 1 i len data) = .wr i len data := by
  simp only [decodeHt, we_htOf, index_htOf, len_htOf, data_htOf]; rfl

/-- An assembled read decodes to the read of its index. -/
@[simp] theorem decodeHt_read : decodeHt (htOf 0 i len data) = .rd i := by
  simp only [decodeHt, we_htOf, index_htOf]; rfl

end

end Sys2Proof
end

