-- ==== Sys2Proof/Laws/State.lean ====
section
/-!
SUPPORT. What each named update of State does to each field, so that no later proof unfolds a record
update. Every lemma is true by definition.
-/
namespace Sys2Proof.Machine

/-! ### takeWord -/

section
variable (w : CmdWord) (s : State)

@[simp] theorem takeWord_opa : (takeWord w s).opa = s.opa := rfl
@[simp] theorem takeWord_opb : (takeWord w s).opb = s.opb := rfl
@[simp] theorem takeWord_key1 : (takeWord w s).key1 = s.key1 := rfl
@[simp] theorem takeWord_key2 : (takeWord w s).key2 = s.key2 := rfl
@[simp] theorem takeWord_key3 : (takeWord w s).key3 = s.key3 := rfl
@[simp] theorem takeWord_res : (takeWord w s).res = s.res := rfl
@[simp] theorem takeWord_rk : (takeWord w s).rk = s.rk := rfl
@[simp] theorem takeWord_tbl : (takeWord w s).tbl = s.tbl := rfl
@[simp] theorem takeWord_tblLen : (takeWord w s).tblLen = s.tblLen := rfl
@[simp] theorem takeWord_cmd : (takeWord w s).cmd = w := rfl
@[simp] theorem takeWord_busy : (takeWord w s).busy = s.busy := rfl
@[simp] theorem takeWord_resValid : (takeWord w s).resValid = false := rfl
@[simp] theorem takeWord_rkValid : (takeWord w s).rkValid = s.rkValid := rfl
@[simp] theorem takeWord_err : (takeWord w s).err = s.err := rfl
@[simp] theorem takeWord_phase : (takeWord w s).phase = s.phase := rfl
@[simp] theorem takeWord_round : (takeWord w s).round = s.round := rfl
@[simp] theorem takeWord_stage : (takeWord w s).stage = s.stage := rfl
@[simp] theorem takeWord_l : (takeWord w s).l = s.l := rfl
@[simp] theorem takeWord_r : (takeWord w s).r = s.r := rfl
@[simp] theorem takeWord_blk : (takeWord w s).blk = s.blk := rfl
@[simp] theorem takeWord_inputs : (takeWord w s).inputs = s.inputs := rfl
@[simp] theorem takeWord_received : (takeWord w s).received = s.received := rfl
@[simp] theorem takeWord_turn : (takeWord w s).turn = s.turn := rfl
@[simp] theorem takeWord_polls : (takeWord w s).polls = s.polls := rfl

end

/-! ### raise -/

section
variable (e : ErrCode) (s : State)

@[simp] theorem raise_opa : (raise e s).opa = s.opa := rfl
@[simp] theorem raise_opb : (raise e s).opb = s.opb := rfl
@[simp] theorem raise_key1 : (raise e s).key1 = s.key1 := rfl
@[simp] theorem raise_key2 : (raise e s).key2 = s.key2 := rfl
@[simp] theorem raise_key3 : (raise e s).key3 = s.key3 := rfl
@[simp] theorem raise_res : (raise e s).res = s.res := rfl
@[simp] theorem raise_rk : (raise e s).rk = s.rk := rfl
@[simp] theorem raise_tbl : (raise e s).tbl = s.tbl := rfl
@[simp] theorem raise_tblLen : (raise e s).tblLen = s.tblLen := rfl
@[simp] theorem raise_cmd : (raise e s).cmd = s.cmd := rfl
@[simp] theorem raise_busy : (raise e s).busy = false := rfl
@[simp] theorem raise_resValid : (raise e s).resValid = false := rfl
@[simp] theorem raise_rkValid : (raise e s).rkValid = s.rkValid := rfl
@[simp] theorem raise_err : (raise e s).err = e := rfl
@[simp] theorem raise_phase : (raise e s).phase = .idle := rfl
@[simp] theorem raise_round : (raise e s).round = 0 := rfl
@[simp] theorem raise_stage : (raise e s).stage = 0 := rfl
@[simp] theorem raise_l : (raise e s).l = s.l := rfl
@[simp] theorem raise_r : (raise e s).r = s.r := rfl
@[simp] theorem raise_blk : (raise e s).blk = s.blk := rfl
@[simp] theorem raise_inputs : (raise e s).inputs = s.inputs := rfl
@[simp] theorem raise_received : (raise e s).received = s.received := rfl
@[simp] theorem raise_turn : (raise e s).turn = s.turn := rfl
@[simp] theorem raise_polls : (raise e s).polls = s.polls := rfl

end

/-! ### accept -/

section
variable (s : State)

@[simp] theorem accept_opa : (accept s).opa = s.opa := rfl
@[simp] theorem accept_opb : (accept s).opb = s.opb := rfl
@[simp] theorem accept_key1 : (accept s).key1 = s.key1 := rfl
@[simp] theorem accept_key2 : (accept s).key2 = s.key2 := rfl
@[simp] theorem accept_key3 : (accept s).key3 = s.key3 := rfl
@[simp] theorem accept_res : (accept s).res = s.res := rfl
@[simp] theorem accept_rk : (accept s).rk = s.rk := rfl
@[simp] theorem accept_tbl : (accept s).tbl = s.tbl := rfl
@[simp] theorem accept_tblLen : (accept s).tblLen = s.tblLen := rfl
@[simp] theorem accept_cmd : (accept s).cmd = s.cmd := rfl
@[simp] theorem accept_busy : (accept s).busy = true := rfl
@[simp] theorem accept_resValid : (accept s).resValid = s.resValid := rfl
@[simp] theorem accept_rkValid : (accept s).rkValid = s.rkValid := rfl
@[simp] theorem accept_err : (accept s).err = .none := rfl
@[simp] theorem accept_phase : (accept s).phase = .init := rfl
@[simp] theorem accept_round : (accept s).round = 0 := rfl
@[simp] theorem accept_stage : (accept s).stage = 0 := rfl
@[simp] theorem accept_l : (accept s).l = s.l := rfl
@[simp] theorem accept_r : (accept s).r = s.r := rfl
@[simp] theorem accept_blk : (accept s).blk = s.blk := rfl
@[simp] theorem accept_inputs : (accept s).inputs = s.inputs := rfl
@[simp] theorem accept_received : (accept s).received = s.received := rfl
@[simp] theorem accept_turn : (accept s).turn = s.turn := rfl
@[simp] theorem accept_polls : (accept s).polls = s.polls := rfl

end

/-! ### acceptBlock -/

section
variable (s : State)

@[simp] theorem acceptBlock_opa : (acceptBlock s).opa = s.opa := rfl
@[simp] theorem acceptBlock_opb : (acceptBlock s).opb = s.opb := rfl
@[simp] theorem acceptBlock_key1 : (acceptBlock s).key1 = s.key1 := rfl
@[simp] theorem acceptBlock_key2 : (acceptBlock s).key2 = s.key2 := rfl
@[simp] theorem acceptBlock_key3 : (acceptBlock s).key3 = s.key3 := rfl
@[simp] theorem acceptBlock_res : (acceptBlock s).res = s.res := rfl
@[simp] theorem acceptBlock_rk : (acceptBlock s).rk = s.rk := rfl
@[simp] theorem acceptBlock_tbl : (acceptBlock s).tbl = s.tbl := rfl
@[simp] theorem acceptBlock_tblLen : (acceptBlock s).tblLen = s.tblLen := rfl
@[simp] theorem acceptBlock_cmd : (acceptBlock s).cmd = s.cmd := rfl
@[simp] theorem acceptBlock_busy : (acceptBlock s).busy = true := rfl
@[simp] theorem acceptBlock_resValid : (acceptBlock s).resValid = s.resValid := rfl
@[simp] theorem acceptBlock_rkValid : (acceptBlock s).rkValid = s.rkValid := rfl
@[simp] theorem acceptBlock_err : (acceptBlock s).err = .none := rfl
@[simp] theorem acceptBlock_phase : (acceptBlock s).phase = .init := rfl
@[simp] theorem acceptBlock_round : (acceptBlock s).round = 0 := rfl
@[simp] theorem acceptBlock_stage : (acceptBlock s).stage = 1 := rfl
@[simp] theorem acceptBlock_l : (acceptBlock s).l = s.l := rfl
@[simp] theorem acceptBlock_r : (acceptBlock s).r = s.r := rfl
@[simp] theorem acceptBlock_blk : (acceptBlock s).blk = s.opa.bits := rfl
@[simp] theorem acceptBlock_inputs : (acceptBlock s).inputs = s.inputs := rfl
@[simp] theorem acceptBlock_received : (acceptBlock s).received = s.received := rfl
@[simp] theorem acceptBlock_turn : (acceptBlock s).turn = s.turn := rfl
@[simp] theorem acceptBlock_polls : (acceptBlock s).polls = s.polls := rfl

end

/-! ### complete -/

section
variable (x : VecReg) (s : State)

@[simp] theorem complete_opa : (complete x s).opa = s.opa := rfl
@[simp] theorem complete_opb : (complete x s).opb = s.opb := rfl
@[simp] theorem complete_key1 : (complete x s).key1 = s.key1 := rfl
@[simp] theorem complete_key2 : (complete x s).key2 = s.key2 := rfl
@[simp] theorem complete_key3 : (complete x s).key3 = s.key3 := rfl
@[simp] theorem complete_res : (complete x s).res = x := rfl
@[simp] theorem complete_rk : (complete x s).rk = s.rk := rfl
@[simp] theorem complete_tbl : (complete x s).tbl = s.tbl := rfl
@[simp] theorem complete_tblLen : (complete x s).tblLen = s.tblLen := rfl
@[simp] theorem complete_cmd : (complete x s).cmd = s.cmd := rfl
@[simp] theorem complete_busy : (complete x s).busy = false := rfl
@[simp] theorem complete_resValid : (complete x s).resValid = true := rfl
@[simp] theorem complete_rkValid : (complete x s).rkValid = s.rkValid := rfl
@[simp] theorem complete_err : (complete x s).err = s.err := rfl
@[simp] theorem complete_phase : (complete x s).phase = .final := rfl
@[simp] theorem complete_round : (complete x s).round = s.round := rfl
@[simp] theorem complete_stage : (complete x s).stage = s.stage := rfl
@[simp] theorem complete_l : (complete x s).l = s.l := rfl
@[simp] theorem complete_r : (complete x s).r = s.r := rfl
@[simp] theorem complete_blk : (complete x s).blk = s.blk := rfl
@[simp] theorem complete_inputs : (complete x s).inputs = s.inputs := rfl
@[simp] theorem complete_received : (complete x s).received = s.received := rfl
@[simp] theorem complete_turn : (complete x s).turn = s.turn := rfl
@[simp] theorem complete_polls : (complete x s).polls = s.polls := rfl

end

/-! ### storeSchedule -/

section
variable (k : Vector RoundKey 16) (s : State)

@[simp] theorem storeSchedule_opa : (storeSchedule k s).opa = s.opa := rfl
@[simp] theorem storeSchedule_opb : (storeSchedule k s).opb = s.opb := rfl
@[simp] theorem storeSchedule_key1 : (storeSchedule k s).key1 = s.key1 := rfl
@[simp] theorem storeSchedule_key2 : (storeSchedule k s).key2 = s.key2 := rfl
@[simp] theorem storeSchedule_key3 : (storeSchedule k s).key3 = s.key3 := rfl
@[simp] theorem storeSchedule_res : (storeSchedule k s).res = s.res := rfl
@[simp] theorem storeSchedule_rk : (storeSchedule k s).rk = k := rfl
@[simp] theorem storeSchedule_tbl : (storeSchedule k s).tbl = s.tbl := rfl
@[simp] theorem storeSchedule_tblLen : (storeSchedule k s).tblLen = s.tblLen := rfl
@[simp] theorem storeSchedule_cmd : (storeSchedule k s).cmd = s.cmd := rfl
@[simp] theorem storeSchedule_busy : (storeSchedule k s).busy = s.busy := rfl
@[simp] theorem storeSchedule_resValid : (storeSchedule k s).resValid = s.resValid := rfl
@[simp] theorem storeSchedule_rkValid : (storeSchedule k s).rkValid = true := rfl
@[simp] theorem storeSchedule_err : (storeSchedule k s).err = s.err := rfl
@[simp] theorem storeSchedule_phase : (storeSchedule k s).phase = s.phase := rfl
@[simp] theorem storeSchedule_round : (storeSchedule k s).round = s.round := rfl
@[simp] theorem storeSchedule_stage : (storeSchedule k s).stage = s.stage := rfl
@[simp] theorem storeSchedule_l : (storeSchedule k s).l = s.l := rfl
@[simp] theorem storeSchedule_r : (storeSchedule k s).r = s.r := rfl
@[simp] theorem storeSchedule_blk : (storeSchedule k s).blk = s.blk := rfl
@[simp] theorem storeSchedule_inputs : (storeSchedule k s).inputs = s.inputs := rfl
@[simp] theorem storeSchedule_received : (storeSchedule k s).received = s.received := rfl
@[simp] theorem storeSchedule_turn : (storeSchedule k s).turn = s.turn := rfl
@[simp] theorem storeSchedule_polls : (storeSchedule k s).polls = s.polls := rfl

end

/-! ### completeKsched -/

section
variable (s : State)

@[simp] theorem completeKsched_opa : (completeKsched s).opa = s.opa := rfl
@[simp] theorem completeKsched_opb : (completeKsched s).opb = s.opb := rfl
@[simp] theorem completeKsched_key1 : (completeKsched s).key1 = s.key1 := rfl
@[simp] theorem completeKsched_key2 : (completeKsched s).key2 = s.key2 := rfl
@[simp] theorem completeKsched_key3 : (completeKsched s).key3 = s.key3 := rfl
@[simp] theorem completeKsched_res : (completeKsched s).res = s.res := rfl
@[simp] theorem completeKsched_rk : (completeKsched s).rk = s.rk := rfl
@[simp] theorem completeKsched_tbl : (completeKsched s).tbl = s.tbl := rfl
@[simp] theorem completeKsched_tblLen : (completeKsched s).tblLen = s.tblLen := rfl
@[simp] theorem completeKsched_cmd : (completeKsched s).cmd = s.cmd := rfl
@[simp] theorem completeKsched_busy : (completeKsched s).busy = false := rfl
@[simp] theorem completeKsched_resValid : (completeKsched s).resValid = s.resValid := rfl
@[simp] theorem completeKsched_rkValid : (completeKsched s).rkValid = s.rkValid := rfl
@[simp] theorem completeKsched_err : (completeKsched s).err = s.err := rfl
@[simp] theorem completeKsched_phase : (completeKsched s).phase = .final := rfl
@[simp] theorem completeKsched_round : (completeKsched s).round = s.round := rfl
@[simp] theorem completeKsched_stage : (completeKsched s).stage = s.stage := rfl
@[simp] theorem completeKsched_l : (completeKsched s).l = s.l := rfl
@[simp] theorem completeKsched_r : (completeKsched s).r = s.r := rfl
@[simp] theorem completeKsched_blk : (completeKsched s).blk = s.blk := rfl
@[simp] theorem completeKsched_inputs : (completeKsched s).inputs = s.inputs := rfl
@[simp] theorem completeKsched_received : (completeKsched s).received = s.received := rfl
@[simp] theorem completeKsched_turn : (completeKsched s).turn = s.turn := rfl
@[simp] theorem completeKsched_polls : (completeKsched s).polls = s.polls := rfl

end

/-! ### loadHalves -/

section
variable (x : Half × Half) (s : State)

@[simp] theorem loadHalves_opa : (loadHalves x s).opa = s.opa := rfl
@[simp] theorem loadHalves_opb : (loadHalves x s).opb = s.opb := rfl
@[simp] theorem loadHalves_key1 : (loadHalves x s).key1 = s.key1 := rfl
@[simp] theorem loadHalves_key2 : (loadHalves x s).key2 = s.key2 := rfl
@[simp] theorem loadHalves_key3 : (loadHalves x s).key3 = s.key3 := rfl
@[simp] theorem loadHalves_res : (loadHalves x s).res = s.res := rfl
@[simp] theorem loadHalves_rk : (loadHalves x s).rk = s.rk := rfl
@[simp] theorem loadHalves_tbl : (loadHalves x s).tbl = s.tbl := rfl
@[simp] theorem loadHalves_tblLen : (loadHalves x s).tblLen = s.tblLen := rfl
@[simp] theorem loadHalves_cmd : (loadHalves x s).cmd = s.cmd := rfl
@[simp] theorem loadHalves_busy : (loadHalves x s).busy = s.busy := rfl
@[simp] theorem loadHalves_resValid : (loadHalves x s).resValid = s.resValid := rfl
@[simp] theorem loadHalves_rkValid : (loadHalves x s).rkValid = s.rkValid := rfl
@[simp] theorem loadHalves_err : (loadHalves x s).err = s.err := rfl
@[simp] theorem loadHalves_phase : (loadHalves x s).phase = .permuted := rfl
@[simp] theorem loadHalves_round : (loadHalves x s).round = s.round := rfl
@[simp] theorem loadHalves_stage : (loadHalves x s).stage = s.stage := rfl
@[simp] theorem loadHalves_l : (loadHalves x s).l = x.1 := rfl
@[simp] theorem loadHalves_r : (loadHalves x s).r = x.2 := rfl
@[simp] theorem loadHalves_blk : (loadHalves x s).blk = s.blk := rfl
@[simp] theorem loadHalves_inputs : (loadHalves x s).inputs = s.inputs := rfl
@[simp] theorem loadHalves_received : (loadHalves x s).received = s.received := rfl
@[simp] theorem loadHalves_turn : (loadHalves x s).turn = s.turn := rfl
@[simp] theorem loadHalves_polls : (loadHalves x s).polls = s.polls := rfl

end

/-! ### roundHalves -/

section
variable (x : Half × Half) (i : Nat) (s : State)

@[simp] theorem roundHalves_opa : (roundHalves x i s).opa = s.opa := rfl
@[simp] theorem roundHalves_opb : (roundHalves x i s).opb = s.opb := rfl
@[simp] theorem roundHalves_key1 : (roundHalves x i s).key1 = s.key1 := rfl
@[simp] theorem roundHalves_key2 : (roundHalves x i s).key2 = s.key2 := rfl
@[simp] theorem roundHalves_key3 : (roundHalves x i s).key3 = s.key3 := rfl
@[simp] theorem roundHalves_res : (roundHalves x i s).res = s.res := rfl
@[simp] theorem roundHalves_rk : (roundHalves x i s).rk = s.rk := rfl
@[simp] theorem roundHalves_tbl : (roundHalves x i s).tbl = s.tbl := rfl
@[simp] theorem roundHalves_tblLen : (roundHalves x i s).tblLen = s.tblLen := rfl
@[simp] theorem roundHalves_cmd : (roundHalves x i s).cmd = s.cmd := rfl
@[simp] theorem roundHalves_busy : (roundHalves x i s).busy = s.busy := rfl
@[simp] theorem roundHalves_resValid : (roundHalves x i s).resValid = s.resValid := rfl
@[simp] theorem roundHalves_rkValid : (roundHalves x i s).rkValid = s.rkValid := rfl
@[simp] theorem roundHalves_err : (roundHalves x i s).err = s.err := rfl
@[simp] theorem roundHalves_phase : (roundHalves x i s).phase = .round := rfl
@[simp] theorem roundHalves_round : (roundHalves x i s).round = BitVec.ofNat 5 i := rfl
@[simp] theorem roundHalves_stage : (roundHalves x i s).stage = s.stage := rfl
@[simp] theorem roundHalves_l : (roundHalves x i s).l = x.1 := rfl
@[simp] theorem roundHalves_r : (roundHalves x i s).r = x.2 := rfl
@[simp] theorem roundHalves_blk : (roundHalves x i s).blk = s.blk := rfl
@[simp] theorem roundHalves_inputs : (roundHalves x i s).inputs = s.inputs := rfl
@[simp] theorem roundHalves_received : (roundHalves x i s).received = s.received := rfl
@[simp] theorem roundHalves_turn : (roundHalves x i s).turn = s.turn := rfl
@[simp] theorem roundHalves_polls : (roundHalves x i s).polls = s.polls := rfl

end

/-! ### formPreOutput -/

section
variable (s : State)

@[simp] theorem formPreOutput_opa : (formPreOutput s).opa = s.opa := rfl
@[simp] theorem formPreOutput_opb : (formPreOutput s).opb = s.opb := rfl
@[simp] theorem formPreOutput_key1 : (formPreOutput s).key1 = s.key1 := rfl
@[simp] theorem formPreOutput_key2 : (formPreOutput s).key2 = s.key2 := rfl
@[simp] theorem formPreOutput_key3 : (formPreOutput s).key3 = s.key3 := rfl
@[simp] theorem formPreOutput_res : (formPreOutput s).res = s.res := rfl
@[simp] theorem formPreOutput_rk : (formPreOutput s).rk = s.rk := rfl
@[simp] theorem formPreOutput_tbl : (formPreOutput s).tbl = s.tbl := rfl
@[simp] theorem formPreOutput_tblLen : (formPreOutput s).tblLen = s.tblLen := rfl
@[simp] theorem formPreOutput_cmd : (formPreOutput s).cmd = s.cmd := rfl
@[simp] theorem formPreOutput_busy : (formPreOutput s).busy = s.busy := rfl
@[simp] theorem formPreOutput_resValid : (formPreOutput s).resValid = s.resValid := rfl
@[simp] theorem formPreOutput_rkValid : (formPreOutput s).rkValid = s.rkValid := rfl
@[simp] theorem formPreOutput_err : (formPreOutput s).err = s.err := rfl
@[simp] theorem formPreOutput_phase : (formPreOutput s).phase = .swapped := rfl
@[simp] theorem formPreOutput_round : (formPreOutput s).round = s.round := rfl
@[simp] theorem formPreOutput_stage : (formPreOutput s).stage = s.stage := rfl
@[simp] theorem formPreOutput_l : (formPreOutput s).l = s.l := rfl
@[simp] theorem formPreOutput_r : (formPreOutput s).r = s.r := rfl
@[simp] theorem formPreOutput_blk : (formPreOutput s).blk = preOutput (s.l, s.r) := rfl
@[simp] theorem formPreOutput_inputs : (formPreOutput s).inputs = s.inputs := rfl
@[simp] theorem formPreOutput_received : (formPreOutput s).received = s.received := rfl
@[simp] theorem formPreOutput_turn : (formPreOutput s).turn = s.turn := rfl
@[simp] theorem formPreOutput_polls : (formPreOutput s).polls = s.polls := rfl

end

/-! ### storeOutput -/

section
variable (x : Block) (s : State)

@[simp] theorem storeOutput_opa : (storeOutput x s).opa = s.opa := rfl
@[simp] theorem storeOutput_opb : (storeOutput x s).opb = s.opb := rfl
@[simp] theorem storeOutput_key1 : (storeOutput x s).key1 = s.key1 := rfl
@[simp] theorem storeOutput_key2 : (storeOutput x s).key2 = s.key2 := rfl
@[simp] theorem storeOutput_key3 : (storeOutput x s).key3 = s.key3 := rfl
@[simp] theorem storeOutput_res : (storeOutput x s).res = s.res := rfl
@[simp] theorem storeOutput_rk : (storeOutput x s).rk = s.rk := rfl
@[simp] theorem storeOutput_tbl : (storeOutput x s).tbl = s.tbl := rfl
@[simp] theorem storeOutput_tblLen : (storeOutput x s).tblLen = s.tblLen := rfl
@[simp] theorem storeOutput_cmd : (storeOutput x s).cmd = s.cmd := rfl
@[simp] theorem storeOutput_busy : (storeOutput x s).busy = s.busy := rfl
@[simp] theorem storeOutput_resValid : (storeOutput x s).resValid = s.resValid := rfl
@[simp] theorem storeOutput_rkValid : (storeOutput x s).rkValid = s.rkValid := rfl
@[simp] theorem storeOutput_err : (storeOutput x s).err = s.err := rfl
@[simp] theorem storeOutput_phase : (storeOutput x s).phase = .final := rfl
@[simp] theorem storeOutput_round : (storeOutput x s).round = s.round := rfl
@[simp] theorem storeOutput_stage : (storeOutput x s).stage = s.stage := rfl
@[simp] theorem storeOutput_l : (storeOutput x s).l = s.l := rfl
@[simp] theorem storeOutput_r : (storeOutput x s).r = s.r := rfl
@[simp] theorem storeOutput_blk : (storeOutput x s).blk = x := rfl
@[simp] theorem storeOutput_inputs : (storeOutput x s).inputs = s.inputs := rfl
@[simp] theorem storeOutput_received : (storeOutput x s).received = s.received := rfl
@[simp] theorem storeOutput_turn : (storeOutput x s).turn = s.turn := rfl
@[simp] theorem storeOutput_polls : (storeOutput x s).polls = s.polls := rfl

end

/-! ### enterStage -/

section
variable (s : State)

@[simp] theorem enterStage_opa : (enterStage s).opa = s.opa := rfl
@[simp] theorem enterStage_opb : (enterStage s).opb = s.opb := rfl
@[simp] theorem enterStage_key1 : (enterStage s).key1 = s.key1 := rfl
@[simp] theorem enterStage_key2 : (enterStage s).key2 = s.key2 := rfl
@[simp] theorem enterStage_key3 : (enterStage s).key3 = s.key3 := rfl
@[simp] theorem enterStage_res : (enterStage s).res = s.res := rfl
@[simp] theorem enterStage_rk : (enterStage s).rk = s.rk := rfl
@[simp] theorem enterStage_tbl : (enterStage s).tbl = s.tbl := rfl
@[simp] theorem enterStage_tblLen : (enterStage s).tblLen = s.tblLen := rfl
@[simp] theorem enterStage_cmd : (enterStage s).cmd = s.cmd := rfl
@[simp] theorem enterStage_busy : (enterStage s).busy = s.busy := rfl
@[simp] theorem enterStage_resValid : (enterStage s).resValid = s.resValid := rfl
@[simp] theorem enterStage_rkValid : (enterStage s).rkValid = s.rkValid := rfl
@[simp] theorem enterStage_err : (enterStage s).err = s.err := rfl
@[simp] theorem enterStage_phase : (enterStage s).phase = .init := rfl
@[simp] theorem enterStage_round : (enterStage s).round = 0 := rfl
@[simp] theorem enterStage_stage : (enterStage s).stage = s.stage + 1 := rfl
@[simp] theorem enterStage_l : (enterStage s).l = s.l := rfl
@[simp] theorem enterStage_r : (enterStage s).r = s.r := rfl
@[simp] theorem enterStage_blk : (enterStage s).blk = s.blk := rfl
@[simp] theorem enterStage_inputs : (enterStage s).inputs = s.inputs := rfl
@[simp] theorem enterStage_received : (enterStage s).received = s.received := rfl
@[simp] theorem enterStage_turn : (enterStage s).turn = s.turn := rfl
@[simp] theorem enterStage_polls : (enterStage s).polls = s.polls := rfl

end

/-! ### respond -/

section
variable (s : State) (x : Response)

@[simp] theorem respond_opa : (respond s x).opa = s.opa := rfl
@[simp] theorem respond_opb : (respond s x).opb = s.opb := rfl
@[simp] theorem respond_key1 : (respond s x).key1 = s.key1 := rfl
@[simp] theorem respond_key2 : (respond s x).key2 = s.key2 := rfl
@[simp] theorem respond_key3 : (respond s x).key3 = s.key3 := rfl
@[simp] theorem respond_res : (respond s x).res = s.res := rfl
@[simp] theorem respond_rk : (respond s x).rk = s.rk := rfl
@[simp] theorem respond_tbl : (respond s x).tbl = s.tbl := rfl
@[simp] theorem respond_tblLen : (respond s x).tblLen = s.tblLen := rfl
@[simp] theorem respond_cmd : (respond s x).cmd = s.cmd := rfl
@[simp] theorem respond_busy : (respond s x).busy = s.busy := rfl
@[simp] theorem respond_resValid : (respond s x).resValid = s.resValid := rfl
@[simp] theorem respond_rkValid : (respond s x).rkValid = s.rkValid := rfl
@[simp] theorem respond_err : (respond s x).err = s.err := rfl
@[simp] theorem respond_phase : (respond s x).phase = s.phase := rfl
@[simp] theorem respond_round : (respond s x).round = s.round := rfl
@[simp] theorem respond_stage : (respond s x).stage = s.stage := rfl
@[simp] theorem respond_l : (respond s x).l = s.l := rfl
@[simp] theorem respond_r : (respond s x).r = s.r := rfl
@[simp] theorem respond_blk : (respond s x).blk = s.blk := rfl
@[simp] theorem respond_inputs : (respond s x).inputs = s.inputs := rfl
@[simp] theorem respond_received : (respond s x).received = x :: s.received := rfl
@[simp] theorem respond_turn : (respond s x).turn = s.turn := rfl
@[simp] theorem respond_polls : (respond s x).polls = s.polls := rfl

end

/-! ### engineTurn -/

section
variable (s : State)

@[simp] theorem engineTurn_opa : (engineTurn s).opa = s.opa := rfl
@[simp] theorem engineTurn_opb : (engineTurn s).opb = s.opb := rfl
@[simp] theorem engineTurn_key1 : (engineTurn s).key1 = s.key1 := rfl
@[simp] theorem engineTurn_key2 : (engineTurn s).key2 = s.key2 := rfl
@[simp] theorem engineTurn_key3 : (engineTurn s).key3 = s.key3 := rfl
@[simp] theorem engineTurn_res : (engineTurn s).res = s.res := rfl
@[simp] theorem engineTurn_rk : (engineTurn s).rk = s.rk := rfl
@[simp] theorem engineTurn_tbl : (engineTurn s).tbl = s.tbl := rfl
@[simp] theorem engineTurn_tblLen : (engineTurn s).tblLen = s.tblLen := rfl
@[simp] theorem engineTurn_cmd : (engineTurn s).cmd = s.cmd := rfl
@[simp] theorem engineTurn_busy : (engineTurn s).busy = s.busy := rfl
@[simp] theorem engineTurn_resValid : (engineTurn s).resValid = s.resValid := rfl
@[simp] theorem engineTurn_rkValid : (engineTurn s).rkValid = s.rkValid := rfl
@[simp] theorem engineTurn_err : (engineTurn s).err = s.err := rfl
@[simp] theorem engineTurn_phase : (engineTurn s).phase = s.phase := rfl
@[simp] theorem engineTurn_round : (engineTurn s).round = s.round := rfl
@[simp] theorem engineTurn_stage : (engineTurn s).stage = s.stage := rfl
@[simp] theorem engineTurn_l : (engineTurn s).l = s.l := rfl
@[simp] theorem engineTurn_r : (engineTurn s).r = s.r := rfl
@[simp] theorem engineTurn_blk : (engineTurn s).blk = s.blk := rfl
@[simp] theorem engineTurn_inputs : (engineTurn s).inputs = s.inputs := rfl
@[simp] theorem engineTurn_received : (engineTurn s).received = s.received := rfl
@[simp] theorem engineTurn_turn : (engineTurn s).turn = s.turn + 1 := rfl
@[simp] theorem engineTurn_polls : (engineTurn s).polls = 0 := rfl

end

/-! ### hostTurn -/

section
variable (s : State)

@[simp] theorem hostTurn_opa : (hostTurn s).opa = s.opa := rfl
@[simp] theorem hostTurn_opb : (hostTurn s).opb = s.opb := rfl
@[simp] theorem hostTurn_key1 : (hostTurn s).key1 = s.key1 := rfl
@[simp] theorem hostTurn_key2 : (hostTurn s).key2 = s.key2 := rfl
@[simp] theorem hostTurn_key3 : (hostTurn s).key3 = s.key3 := rfl
@[simp] theorem hostTurn_res : (hostTurn s).res = s.res := rfl
@[simp] theorem hostTurn_rk : (hostTurn s).rk = s.rk := rfl
@[simp] theorem hostTurn_tbl : (hostTurn s).tbl = s.tbl := rfl
@[simp] theorem hostTurn_tblLen : (hostTurn s).tblLen = s.tblLen := rfl
@[simp] theorem hostTurn_cmd : (hostTurn s).cmd = s.cmd := rfl
@[simp] theorem hostTurn_busy : (hostTurn s).busy = s.busy := rfl
@[simp] theorem hostTurn_resValid : (hostTurn s).resValid = s.resValid := rfl
@[simp] theorem hostTurn_rkValid : (hostTurn s).rkValid = s.rkValid := rfl
@[simp] theorem hostTurn_err : (hostTurn s).err = s.err := rfl
@[simp] theorem hostTurn_phase : (hostTurn s).phase = s.phase := rfl
@[simp] theorem hostTurn_round : (hostTurn s).round = s.round := rfl
@[simp] theorem hostTurn_stage : (hostTurn s).stage = s.stage := rfl
@[simp] theorem hostTurn_l : (hostTurn s).l = s.l := rfl
@[simp] theorem hostTurn_r : (hostTurn s).r = s.r := rfl
@[simp] theorem hostTurn_blk : (hostTurn s).blk = s.blk := rfl
@[simp] theorem hostTurn_inputs : (hostTurn s).inputs = s.inputs := rfl
@[simp] theorem hostTurn_received : (hostTurn s).received = s.received := rfl
@[simp] theorem hostTurn_turn : (hostTurn s).turn = s.turn := rfl
@[simp] theorem hostTurn_polls : (hostTurn s).polls = s.polls + 1 := rfl

end

end Sys2Proof.Machine
end

