-- ==== Sys2Proof/Laws/Ops.lean ====
section
/-!
SUPPORT. What each shared operation can do, once.
-/
namespace Sys2Proof.Machine

/-! ### Holding -/

@[simp] theorem whenFree_busy {s : State} (h : s.busy = true) (effect : Out) :
    whenFree s effect = .next s := if_pos h

@[simp] theorem whenFree_free {s : State} (h : s.busy = false) (effect : Out) :
    whenFree s effect = effect := by simp [whenFree, h]

/-! ### Writing a command word -/

section
variable {w : CmdWord} {validate : State → Option ErrCode} {accepted : State → State} {s t : State}

/-- A command that passes its validation is accepted (R194). -/
theorem command_accepted (h : s.busy = false) (hv : validate (takeWord w s) = none) :
    command w validate accepted s = .next (accepted (takeWord w s)) := by
  simp [command, h, hv]

/-- A command that fails its validation raises its error (R194, R213). -/
theorem command_refused {e : ErrCode} (h : s.busy = false)
    (hv : validate (takeWord w s) = some e) :
    command w validate accepted s = .next (raise e (takeWord w s)) := by
  simp [command, h, hv]

/-- All that a write of a command word can do: wait, raise, or accept. It always answers a next
state. -/
theorem command_cases (h : command w validate accepted s = .next t) :
    (s.busy = true ∧ t = s) ∨
    (s.busy = false ∧ ∃ e, validate (takeWord w s) = some e ∧ t = raise e (takeWord w s)) ∨
    (s.busy = false ∧ validate (takeWord w s) = none ∧ t = accepted (takeWord w s)) := by
  unfold command whenFree at h
  split at h
  · exact .inl ⟨‹_›, by simpa using h.symm⟩
  · have hb : s.busy = false := by simpa using ‹¬s.busy = true›
    split at h
    · exact .inr (.inl ⟨hb, _, ‹_›, by simpa using h.symm⟩)
    · exact .inr (.inr ⟨hb, ‹_›, by simpa using h.symm⟩)

/-- A write of a command word never stops the machine. -/
theorem command_next (w : CmdWord) (validate : State → Option ErrCode)
    (accepted : State → State) (s : State) : ∃ t, command w validate accepted s = .next t := by
  unfold command whenFree
  split
  · exact ⟨_, rfl⟩
  · split <;> exact ⟨_, rfl⟩

end

/-! ### Validation does not look at CMD, RES_VALID or the host's side -/

@[simp] theorem tableOf_takeWord (w : CmdWord) (s : State) (t : TableSel) :
    tableOf (takeWord w s) t = tableOf s t := by cases t <;> rfl

@[simp] theorem keyslot_takeWord (w : CmdWord) (s : State) (k : KeySlot) :
    keyslot (takeWord w s) k = keyslot s k := by cases k <;> rfl

@[simp] theorem validatePerm_takeWord (w : CmdWord) (s : State) (t : TableSel) :
    validatePerm t (takeWord w s) = validatePerm t s := rfl

@[simp] theorem validateKsched_takeWord (w : CmdWord) (s : State) (k : KeySlot) :
    validateKsched k (takeWord w s) = validateKsched k s := rfl

@[simp] theorem validateFeistel_takeWord (w : CmdWord) (s : State) :
    validateFeistel (takeWord w s) = validateFeistel s := rfl

@[simp] theorem validateDes_takeWord (w : CmdWord) (s : State) (k : KeySlot) :
    validateDes k (takeWord w s) = validateDes k s := rfl

@[simp] theorem validateTdes_takeWord (w : CmdWord) (s : State) (b : Bool) :
    validateTdes b (takeWord w s) = validateTdes b s := rfl

/-! ### Register writes -/

/-- All that a write of a register other than CMD can change: the one operand register, TBL_LEN or
TBL entry it names (R191, R199). -/
theorem storeReg_frame (len : LenTag) (data : Data) (s : State) (x : Reg) :
    storeReg len data s x =
      { s with
        opa := (storeReg len data s x).opa
        opb := (storeReg len data s x).opb
        key1 := (storeReg len data s x).key1
        key2 := (storeReg len data s x).key2
        key3 := (storeReg len data s x).key3
        tbl := (storeReg len data s x).tbl
        tblLen := (storeReg len data s x).tblLen } := by
  cases x <;> rfl

/-- The length tag of a written vector register is LEN (R192). -/
@[simp] theorem vecOf_len (len : LenTag) (data : Data) : (vecOf len data).len = len := by
  unfold vecOf; split <;> rfl

/-- The data bits of a written vector register (R192). -/
theorem vecOf_bits (len : LenTag) (data : Data) : (vecOf len data).bits =
    if len.toNat ≤ 64 then (held data len.toNat).setWidth 64 else data := by
  unfold vecOf; split <;> rfl

/-- Where a vector written fits the register, no bit at or above its length is set (R22, R192). -/
theorem vecOf_lt {len : LenTag} (data : Data) (h : len.toNat ≤ 64) :
    (vecOf len data).bits.toNat < 2 ^ len.toNat := by
  rw [vecOf_bits, if_pos h]
  simp only [held, BitVec.toNat_setWidth]
  exact lt_of_le_of_lt (Nat.mod_le _ _) (Nat.mod_lt _ (by positivity))

/-! ### Reads -/

/-- A read changes no register: it adds one response (R57, R197). -/
theorem execRd_cases {i : RegIdx} {s t : State} (h : execRd i s = .next t) :
    t = s ∨ ∃ x, regAt i = some x ∧ t = respond s (readReg s x) := by
  unfold execRd at h
  split at h
  · exact .inr ⟨_, ‹_›, by simpa using h.symm⟩
  · unfold whenFree at h
    split at h
    · exact .inl (by simpa using h.symm)
    · exact .inr ⟨_, ‹_›, by simpa using h.symm⟩
  · unfold whenFree at h
    split at h
    · exact .inl (by simpa using h.symm)
    · cases h

/-! ### Writes -/

/-- All that a WR can do: wait, be a command, or store (R191). -/
theorem execWr_cases {i : RegIdx} {len : LenTag} {data : Data} {s t : State}
    (h : execWr i len data s = .next t) :
    (s.busy = true ∧ t = s) ∨
    (s.busy = false ∧ regAt i = some .cmd ∧ writeCmd data s = .next t) ∨
    (s.busy = false ∧ ∃ x, regAt i = some x ∧ x ≠ .cmd ∧ t = storeReg len data s x) := by
  unfold execWr whenFree at h
  split at h
  · exact .inl ⟨‹_›, by simpa using h.symm⟩
  · have hb : s.busy = false := by simpa using ‹¬s.busy = true›
    split at h
    · exact .inr (.inl ⟨hb, ‹_›, h⟩)
    · rename_i x hne hx
      exact .inr (.inr ⟨hb, x, hx, fun e => hne e, by simpa using h.symm⟩)
    · cases h

end Sys2Proof.Machine
end

