-- ==== Sys2Proof/Laws/Engine.lean ====
section
/-!
SUPPORT. What an engine step can do: one case for each rule (R110, R128, R144, R160 to R163, R179).
-/
namespace Sys2Proof.Machine

/-- A key of 64 bits has its schedule (R120). -/
theorem generateSubkeys_eq_ok {v : VecReg} {k : Vector RoundKey 16} :
    generateSubkeys v = .ok k ↔ v.len = 64 ∧ k = ksched v.bits := by
  unfold generateSubkeys
  split
  · rename_i h
    exact ⟨fun x => ⟨h, by simpa using x.symm⟩, fun x => by rw [x.2]⟩
  · rename_i h
    exact ⟨fun x => (by cases x), fun x => absurd x.1 h⟩

theorem stepPerm_cases {s t : State} (h : stepPerm s = .next t) :
    ∃ x, tselTable (cwTsel s.cmd) = some x ∧ validatePerm x s = none ∧
      t = complete (vecReg (gather (tableOf s x).length (tableOf s x)
        (held s.opa.bits s.opa.len.toNat))) s := by
  unfold stepPerm at h
  split at h
  · cases h
  · rename_i x hx
    split at h
    · rename_i y hv hy
      refine ⟨x, hx, hv, ?_⟩
      unfold permResult permute at hy
      split at hy
      · simp only [Except.map, Except.ok.injEq] at hy
        rw [hy]; simpa using h.symm
      · cases hy
    · cases h

theorem stepKsched_cases {s t : State} (h : stepKsched s = .next t) :
    ∃ k, kselSlot (cwKsel s.cmd) = some k ∧ (keyslot s k).len = 64 ∧
      t = completeKsched (storeSchedule (ksched (keyslot s k).bits) s) := by
  unfold stepKsched at h
  split at h
  · cases h
  · rename_i k hk
    split at h
    · rename_i rk hr
      obtain ⟨h1, rfl⟩ := generateSubkeys_eq_ok.1 hr
      exact ⟨k, hk, h1, by simpa using h.symm⟩
    · cases h

theorem stepFeistel_cases {s t : State} (h : stepFeistel s = .next t) :
    validateFeistel s = none ∧
      t = complete (vecReg (feistel (held s.opa.bits 32) (held s.opb.bits 48))) s := by
  unfold stepFeistel at h
  split at h
  · cases h
  · exact ⟨‹_›, by simpa using h.symm⟩

theorem stepPermuted_cases {s t : State} (h : stepPermuted s = .next t) :
    ∃ k, stageKey s.cmd s.stage = some k ∧ (keyslot s k).len = 64 ∧
      t = loadHalves (desStart s.blk) (storeSchedule (ksched (keyslot s k).bits) s) := by
  unfold stepPermuted at h
  split at h
  · cases h
  · rename_i k hk
    split at h
    · rename_i rk hr
      obtain ⟨h1, rfl⟩ := generateSubkeys_eq_ok.1 hr
      exact ⟨k, hk, h1, by simpa using h.symm⟩
    · cases h

theorem stepRound_cases {s t : State} (h : stepRound s = .next t) :
    ∃ k, rkAt s.rk (rkIndex (stageDir s.cmd s.stage) (s.round.toNat + 1)) = some k ∧
      t = roundHalves (desRound k (s.l, s.r)) (s.round.toNat + 1) s := by
  unfold stepRound at h
  split at h
  · exact ⟨_, ‹_›, by simpa using h.symm⟩
  · cases h

theorem stepFinal_cases {s t : State} (h : stepFinal s = .next t) :
    (s.stage = nstage s.cmd ∧ t = complete (vecReg (gather 64 fpTable s.blk))
      (storeOutput (gather 64 fpTable s.blk) s)) ∨
    (s.stage ≠ nstage s.cmd ∧ t = storeOutput (gather 64 fpTable s.blk) s) := by
  unfold stepFinal at h
  split at h
  · exact .inl ⟨‹_›, by simpa using h.symm⟩
  · exact .inr ⟨‹_›, by simpa using h.symm⟩

/-- All that a step inside a stage can do (R159): one case for each of R160 to R163 and R179. -/
theorem stepStage_cases {s t : State} (h : stepStage s = .next t) :
    (s.phase = .init ∧ stepPermuted s = .next t) ∨
    (s.phase = .permuted ∧ stepRound s = .next t) ∨
    (s.phase = .round ∧ s.round.toNat < 16 ∧ stepRound s = .next t) ∨
    (s.phase = .round ∧ s.round = 16 ∧ t = formPreOutput s) ∨
    (s.phase = .swapped ∧ stepFinal s = .next t) ∨
    (s.phase = .final ∧ cwOp s.cmd = 5 ∧ s.stage ≠ 3 ∧ t = enterStage s) := by
  unfold stepStage at h
  split at h
  · exact .inl ⟨‹_›, h⟩
  · exact .inr (.inl ⟨‹_›, h⟩)
  · split at h
    · exact .inr (.inr (.inl ⟨‹_›, ‹_›, h⟩))
    · split at h
      · exact .inr (.inr (.inr (.inl ⟨‹_›, ‹_›, by simpa [stepSwapped] using h.symm⟩)))
      · cases h
  · exact .inr (.inr (.inr (.inr (.inl ⟨‹_›, h⟩))))
  · split at h
    · unfold stepNextStage at h
      split at h
      · cases h
      · exact .inr (.inr (.inr (.inr (.inr ⟨‹_›, ‹_›, ‹_›, by simpa using h.symm⟩))))
    · cases h
  · cases h

/-! ### The enabled rule, by operation (R17) -/

theorem engineStep_perm {s : State} (hb : s.busy = true) (ho : cwOp s.cmd = 1)
    (hp : s.phase = .init) : engineStep s = stepPerm s := by
  simp [engineStep, atInit, hb, ho, hp]

theorem engineStep_ksched {s : State} (hb : s.busy = true) (ho : cwOp s.cmd = 2)
    (hp : s.phase = .init) : engineStep s = stepKsched s := by
  simp [engineStep, atInit, hb, ho, hp]

theorem engineStep_feistel {s : State} (hb : s.busy = true) (ho : cwOp s.cmd = 3)
    (hp : s.phase = .init) : engineStep s = stepFeistel s := by
  simp [engineStep, atInit, hb, ho, hp]

theorem engineStep_stage {s : State} (hb : s.busy = true) (ho : cwOp s.cmd = 4 ∨ cwOp s.cmd = 5) :
    engineStep s = stepStage s := by
  rcases ho with ho | ho <;> simp [engineStep, hb, ho]

/-- All that an engine step can do (R17): the step of the operation in CMD, where BUSY = 1. -/
theorem engineStep_cases {s t : State} (h : engineStep s = .next t) :
    s.busy = true ∧
    ((cwOp s.cmd = 1 ∧ s.phase = .init ∧ stepPerm s = .next t) ∨
     (cwOp s.cmd = 2 ∧ s.phase = .init ∧ stepKsched s = .next t) ∨
     (cwOp s.cmd = 3 ∧ s.phase = .init ∧ stepFeistel s = .next t) ∨
     ((cwOp s.cmd = 4 ∨ cwOp s.cmd = 5) ∧ stepStage s = .next t)) := by
  unfold engineStep at h
  split at h
  · refine ⟨‹_›, ?_⟩
    have op : ∀ n : Nat, n < 16 → (cwOp s.cmd).toNat = n → cwOp s.cmd = BitVec.ofNat 4 n := by
      intro n hn hc
      exact BitVec.eq_of_toNat_eq (by rw [hc, BitVec.toNat_ofNat, Nat.mod_eq_of_lt hn])
    have ini : ∀ x : Out, atInit s x = .next t → s.phase = .init ∧ x = .next t := by
      intro x hx
      unfold atInit at hx
      split at hx
      · exact ⟨‹_›, hx⟩
      · cases hx
    split at h
    · obtain ⟨h1, h2⟩ := ini _ h
      exact .inl ⟨op 1 (by decide) ‹_›, h1, h2⟩
    · obtain ⟨h1, h2⟩ := ini _ h
      exact .inr (.inl ⟨op 2 (by decide) ‹_›, h1, h2⟩)
    · obtain ⟨h1, h2⟩ := ini _ h
      exact .inr (.inr (.inl ⟨op 3 (by decide) ‹_›, h1, h2⟩))
    · exact .inr (.inr (.inr ⟨.inl (op 4 (by decide) ‹_›), h⟩))
    · exact .inr (.inr (.inr ⟨.inr (op 5 (by decide) ‹_›), h⟩))
    · cases h
  · cases h

/-- An engine run of n + 1 steps is one step and then n. -/
theorem engineRun_succ {n : Nat} {s t : State} (h : engineStep s = .next t) :
    engineRun (n + 1) s = engineRun n t := by simp [engineRun, h]

/-- Two engine runs one after the other. -/
theorem engineRun_add {m n : Nat} {s t : State} (h : engineRun m s = .next t) :
    engineRun (m + n) s = engineRun n t := by
  induction m generalizing s with
  | zero =>
    have : s = t := by simpa [engineRun] using h
    subst this; rw [Nat.zero_add]
  | succ m ih =>
    rw [Nat.add_right_comm]
    cases hs : engineStep s with
    | next u =>
      rw [engineRun_succ hs] at h ⊢
      exact ih h
    | fault f => simp [engineRun, hs] at h
    | refused x => simp [engineRun, hs] at h

end Sys2Proof.Machine
end

