-- ==== Sys2Proof/Laws/Step.lean ====
section
/-!
SUPPORT. What one step of the machine can do (00_scope.md R17): one case for each agent.
-/
namespace Sys2Proof.Machine

/-- What the next move can be: nothing, an engine step, a host transaction taken from the list, a
read of STATUS for a WAIT, or a reset. -/
theorem nextMove_cases (s : State) :
    (s.busy = false ∧ s.inputs = [] ∧ nextMove s = .idle) ∨
    (s.busy = true ∧ nextMove s = .engine (engineTurn s)) ∨
    (∃ w rest p, s.inputs = .xfer w :: rest ∧ (s.busy = true → decodeHt w = .rd 0x01) ∧
      nextMove s = .host (decodeHt w) { s with inputs := rest, polls := p }) ∨
    (∃ rest i p, s.inputs = .wait :: rest ∧
      nextMove s = .host (.rd 0x01) { s with inputs := i, polls := p }) ∨
    (∃ rest p, s.inputs = .reset :: rest ∧
      nextMove s = .reset (afterReset { s with inputs := rest, polls := p })) := by
  unfold nextMove
  split
  · exact .inl ⟨‹_›, ‹_›, rfl⟩
  · rename_i e rest hb hi
    cases e with
    | xfer w =>
      exact .inr (.inr (.inl ⟨w, rest, s.polls, hi, by simp [hb], rfl⟩))
    | wait => exact .inr (.inr (.inr (.inl ⟨rest, _, s.polls, hi, rfl⟩)))
    | reset => exact .inr (.inr (.inr (.inr ⟨rest, s.polls, hi, rfl⟩)))
  · exact .inr (.inl ⟨‹_›, rfl⟩)
  · rename_i e rest hb hi
    split
    · rename_i hc
      cases e with
      | xfer w =>
        refine .inr (.inr (.inl ⟨w, rest, s.polls + 1, hi, fun _ => ?_, rfl⟩))
        simp only [anytime, Bool.and_eq_true, decide_eq_true_eq] at hc
        exact hc.1
      | wait => exact .inr (.inr (.inr (.inl ⟨rest, _, s.polls + 1, hi, rfl⟩)))
      | reset => exact .inr (.inr (.inr (.inr ⟨rest, s.polls + 1, hi, rfl⟩)))
    · exact .inr (.inl ⟨hb, rfl⟩)

/-- All that a step can do. -/
theorem step_cases {s t : State} (h : step s = .next t) :
    (s.busy = false ∧ s.inputs = [] ∧ t = s) ∨
    (s.busy = true ∧ engineStep (engineTurn s) = .next t) ∨
    (∃ w rest p, s.inputs = .xfer w :: rest ∧ (s.busy = true → decodeHt w = .rd 0x01) ∧
      exec (decodeHt w) { s with inputs := rest, polls := p } = .next t) ∨
    (∃ rest i p, s.inputs = .wait :: rest ∧
      exec (.rd 0x01) { s with inputs := i, polls := p } = .next t) ∨
    (∃ rest p, s.inputs = .reset :: rest ∧
      t = afterReset { s with inputs := rest, polls := p }) := by
  unfold step at h
  rcases nextMove_cases s with ⟨h1, h2, h3⟩ | ⟨h1, h3⟩ | ⟨w, rest, p, h1, h2, h3⟩ |
    ⟨rest, i, p, h1, h3⟩ | ⟨rest, p, h1, h3⟩ <;> rw [h3] at h
  · exact .inl ⟨h1, h2, by simpa using h.symm⟩
  · exact .inr (.inl ⟨h1, h⟩)
  · exact .inr (.inr (.inl ⟨w, rest, p, h1, h2, h⟩))
  · exact .inr (.inr (.inr (.inl ⟨rest, i, p, h1, h⟩)))
  · exact .inr (.inr (.inr (.inr ⟨rest, p, h1, by simpa using h.symm⟩)))

end Sys2Proof.Machine
end

