-- ==== Sys2Proof/Laws/Exec.lean ====
section
/-!
SUPPORT. All that an instruction can do, once: wait, read, store, raise an error or be accepted
(45_host_transfers.md R191, R194, R195, R197; 60_exceptions.md R213).
-/
namespace Sys2Proof.Machine

open Sys2Proof.Safety

/-! ### The errors a validation raises are the engine's four (R221) -/

/-- The codes that reach STATUS.ERR (R211, R214, R215, R218, R219). -/
abbrev EngineError (e : ErrCode) : Prop :=
  e = .invalidBlockLength ∨ e = .invalidKeyLength ∨ e = .invalidTableIndex ∨ e = .illegalCommand

theorem validatePerm_error {x : TableSel} {s : State} {e : ErrCode} (h : validatePerm x s = some e) :
    EngineError e := by
  unfold validatePerm at h
  split_ifs at h <;> cases h <;> decide

theorem validateKsched_error {k : KeySlot} {s : State} {e : ErrCode}
    (h : validateKsched k s = some e) : EngineError e := by
  unfold validateKsched at h
  split_ifs at h
  cases h
  decide

theorem validateFeistel_error {s : State} {e : ErrCode} (h : validateFeistel s = some e) :
    EngineError e := by
  unfold validateFeistel at h
  split_ifs at h <;> cases h <;> decide

theorem validateDes_error {k : KeySlot} {s : State} {e : ErrCode} (h : validateDes k s = some e) :
    EngineError e := by
  unfold validateDes at h
  split_ifs at h <;> cases h <;> decide

theorem validateTdes_error {b : Bool} {s : State} {e : ErrCode} (h : validateTdes b s = some e) :
    EngineError e := by
  unfold validateTdes at h
  split_ifs at h <;> cases h <;> decide

/-! ### Commands -/

/-- All that a command's write to CMD can do: wait, raise one of the four errors, or be accepted with
operands that pass its validation. -/
def CommandDoes (w : CmdWord) (s t : State) : Prop :=
  (s.busy = true ∧ t = s) ∨
  (s.busy = false ∧ ∃ e, EngineError e ∧ t = raise e (takeWord w s)) ∨
  (s.busy = false ∧ Passes s w ∧ ¬ IsCipher w ∧ t = accept (takeWord w s)) ∨
  (s.busy = false ∧ Passes s w ∧ IsCipher w ∧ t = acceptBlock (takeWord w s))

/-- A command that is not DES or TDES. -/
theorem does_of_accept {w : CmdWord} {v : State → Option ErrCode} {s t : State}
    (hw : ¬ IsCipher w) (he : ∀ e, v (takeWord w s) = some e → EngineError e)
    (hv : v (takeWord w s) = none → Passes s w) (h : command w v accept s = .next t) :
    CommandDoes w s t := by
  rcases command_cases h with h | ⟨h, e, h1, h2⟩ | ⟨h, h1, h2⟩
  · exact .inl h
  · exact .inr (.inl ⟨h, e, he e h1, h2⟩)
  · exact .inr (.inr (.inl ⟨h, hv h1, hw, h2⟩))

/-- A DES or TDES command. -/
theorem does_of_acceptBlock {w : CmdWord} {v : State → Option ErrCode} {s t : State}
    (hw : IsCipher w) (he : ∀ e, v (takeWord w s) = some e → EngineError e)
    (hv : v (takeWord w s) = none → Passes s w) (h : command w v acceptBlock s = .next t) :
    CommandDoes w s t := by
  rcases command_cases h with h | ⟨h, e, h1, h2⟩ | ⟨h, h1, h2⟩
  · exact .inl h
  · exact .inr (.inl ⟨h, e, he e h1, h2⟩)
  · exact .inr (.inr (.inr ⟨h, hv h1, hw, h2⟩))

/-- Every command does only what `CommandDoes` says. -/
theorem exec_command_cases {i : Instr} {w : CmdWord} {s t : State} (hw : encode i = .cw w)
    (h : exec i s = .next t) : CommandDoes w s t := by
  have perm : ∀ {w x}, cwOp w = 1 → tselTable (cwTsel w) = some x →
      command w (validatePerm x) accept s = .next t → CommandDoes w s t := fun ho hx h =>
    does_of_accept (by simp [IsCipher, ho]) (fun _ => validatePerm_error)
      (fun hv => .perm _ ho hx (by simpa using hv)) h
  have des : ∀ {w k}, cwOp w = 4 → kselSlot (cwKsel w) = some k →
      command w (validateDes k) acceptBlock s = .next t → CommandDoes w s t := fun ho hk h =>
    does_of_acceptBlock (.inl ho) (fun _ => validateDes_error)
      (fun hv => .des _ ho hk (by simpa using hv)) h
  have tdes : ∀ {w b}, cwOp w = 5 → decide (cwK3en w = 1) = b →
      command w (validateTdes b) acceptBlock s = .next t → CommandDoes w s t := fun ho hb h =>
    does_of_acceptBlock (.inr ho) (fun _ => validateTdes_error)
      (fun hv => .tdes ho (by rw [hb]; simpa using hv)) h
  cases i <;> simp only [encode, Encoding.cw.injEq, reduceCtorEq] at hw <;> subst hw
  case ksched k =>
    have ho : cwOp (cwOf 2 0 0 (slotKsel k) 0) = 2 := by cases k <;> decide
    exact does_of_accept (by cases k <;> decide) (fun _ => validateKsched_error)
      (fun hv => .ksched k ho (by cases k <;> decide) (by simpa using hv)) h
  case feistel =>
    exact does_of_accept (by decide) (fun _ => validateFeistel_error)
      (fun hv => .feistel (by decide) (by simpa using hv)) h
  case desEnc k => exact des (k := k) (by cases k <;> decide) (by cases k <;> decide) h
  case desDec k => exact des (k := k) (by cases k <;> decide) (by cases k <;> decide) h
  case tdes2Enc => exact tdes (by decide) (by decide) h
  case tdes2Dec => exact tdes (by decide) (by decide) h
  case tdes3Enc => exact tdes (by decide) (by decide) h
  case tdes3Dec => exact tdes (by decide) (by decide) h
  all_goals exact perm (by decide) (by decide) h

/-- A write of an Illegal word waits or raises IllegalCommand (R84). -/
theorem illegalCommand_cases {w : CmdWord} {s t : State} (h : illegalCommand w s = .next t) :
    CommandDoes w s t := by
  rcases command_cases h with h | ⟨h, e, h1, h2⟩ | ⟨_, h1, _⟩
  · exact .inl h
  · exact .inr (.inl ⟨h, e, by cases h1; decide, h2⟩)
  · cases h1

/-! ### Writes to CMD (R194) -/

/-- A word whose ZERO field is 0 is its low eleven bits. -/
theorem eq_of_cwZero {w : CmdWord} (h : cwZero w = 0) : (w.setWidth 11).setWidth 32 = w := by
  refine BitVec.eq_of_getLsbD_eq fun j hj => ?_
  simp only [BitVec.getLsbD_setWidth, hj, decide_true, Bool.true_and]
  by_cases h1 : j < 11
  · simp [h1]
  · have h2 : (cwZero w).getLsbD (j - 11) = false := by rw [h]; simp
    have h3 : 11 + (j - 11) = j := by omega
    simp only [cwZero, BitVec.getLsbD_extractLsb', h3] at h2
    have h4 : j - 11 < 21 := by omega
    simp only [h4, decide_true, Bool.true_and] at h2
    simp [h1, h2]

/-- A word that decodes to a command is that command's word (R80). -/
theorem encode_of_decodeCommand {w : CmdWord} {i : Instr} (h : decodeCommand w = .ok i) :
    encode i = .cw w := by
  have all : ∀ x : BitVec 11, ((decodeCommand (x.setWidth 32)).toOption.all
      fun i => decide (encode i = .cw (x.setWidth 32))) = true := by decide +kernel
  by_cases hz : cwZero w = 0
  · have := all (w.setWidth 11)
    rw [eq_of_cwZero hz, h] at this
    simpa [Except.toOption] using this
  · unfold decodeCommand at h
    rw [if_pos hz] at h
    cases h

/-- A write to CMD does only what `CommandDoes` says. -/
theorem writeCmd_cases {data : Data} {s t : State} (h : writeCmd data s = .next t) :
    CommandDoes (data.setWidth 32) s t := by
  unfold writeCmd at h
  split at h
  · rename_i i hi
    have he := encode_of_decodeCommand hi
    cases i
    case wr => simp [encode] at he
    case rd => simp [encode] at he
    all_goals exact exec_command_cases he h
  · exact illegalCommand_cases h

/-! ### Every instruction -/

/-- All that an instruction can do: wait, read a register, store one, or be a command. -/
theorem exec_cases {i : Instr} {s t : State} (h : exec i s = .next t) :
    t = s ∨ (∃ x, t = respond s (readReg s x)) ∨
    (s.busy = false ∧ ∃ len data x, t = storeReg len data s x) ∨
    (s.busy = false ∧ ∃ w, CommandDoes w s t) := by
  by_cases hb : s.busy = true
  · cases i
    case rd idx =>
      rcases execRd_cases h with h | ⟨x, _, h⟩
      · exact .inl h
      · exact .inr (.inl ⟨x, h⟩)
    case wr idx len data =>
      have : exec (.wr idx len data) s = .next s := whenFree_busy hb _
      rw [this] at h
      exact .inl (by simpa using h.symm)
    all_goals exact .inl (by
      rcases exec_command_cases rfl h with h | ⟨h, _⟩ | ⟨h, _⟩ | ⟨h, _⟩
      · exact h.2
      all_goals simp [hb] at h)
  · have hf : s.busy = false := by simpa using hb
    cases i
    case rd idx =>
      rcases execRd_cases h with h | ⟨x, _, h⟩
      · exact .inl h
      · exact .inr (.inl ⟨x, h⟩)
    case wr idx len data =>
      rcases execWr_cases h with h | ⟨_, _, h⟩ | ⟨_, x, _, _, h⟩
      · exact .inl h.2
      · exact .inr (.inr (.inr ⟨hf, _, writeCmd_cases h⟩))
      · exact .inr (.inr (.inl ⟨hf, len, data, x, h⟩))
    all_goals exact .inr (.inr (.inr ⟨hf, _, exec_command_cases rfl h⟩))

end Sys2Proof.Machine
end

