-- ==== Sys2Proof/Laws/PerInstr.lean ====
section
/-!
SUPPORT. A fact about each instruction as syntax: its command word has 0 in every field its operation
does not use (30_encoding.md R77, R78) and in ZERO (R76). The two bus operations have no command word.
-/
namespace Sys2Proof.Laws.UnusedFieldsZero

/-- ZERO is 0, and so is every field the operation of the word does not use (R76, R78). -/
abbrev Clean (w : CmdWord) : Prop :=
  cwZero w = 0 ∧
  (cwOp w ∈ [1#4, 2#4, 3#4] → cwDir w = 0) ∧
  (cwOp w ≠ 5 → cwK3en w = 0) ∧
  (cwOp w ∈ [1#4, 3#4, 5#4] → cwKsel w = 0) ∧
  (cwOp w ≠ 1 → cwTsel w = 0)

/-- An instruction that is a command is encoded with its unused fields 0. -/
def Statement (i : Instr) : Prop := ∀ w, encode i = .cw w → Clean w

/-- The statement of a command whose word is known. -/
theorem of_encode {i : Instr} {w : CmdWord} (h : encode i = .cw w) (hw : Clean w) : Statement i := by
  intro v hv
  rw [h] at hv
  cases hv
  exact hw

theorem permCustom : Statement .permCustom := of_encode rfl (by decide)
theorem permIp : Statement .permIp := of_encode rfl (by decide)
theorem permFp : Statement .permFp := of_encode rfl (by decide)
theorem permE : Statement .permE := of_encode rfl (by decide)
theorem permP : Statement .permP := of_encode rfl (by decide)
theorem permPc1 : Statement .permPc1 := of_encode rfl (by decide)
theorem permPc2 : Statement .permPc2 := of_encode rfl (by decide)
theorem ksched (k : KeySlot) : Statement (.ksched k) := of_encode rfl (by cases k <;> decide)
theorem feistel : Statement .feistel := of_encode rfl (by decide)
theorem desEnc (k : KeySlot) : Statement (.desEnc k) := of_encode rfl (by cases k <;> decide)
theorem desDec (k : KeySlot) : Statement (.desDec k) := of_encode rfl (by cases k <;> decide)
theorem tdes2Enc : Statement .tdes2Enc := of_encode rfl (by decide)
theorem tdes2Dec : Statement .tdes2Dec := of_encode rfl (by decide)
theorem tdes3Enc : Statement .tdes3Enc := of_encode rfl (by decide)
theorem tdes3Dec : Statement .tdes3Dec := of_encode rfl (by decide)
theorem wr (idx : RegIdx) (len : LenTag) (data : Data) : Statement (.wr idx len data) :=
  fun _ h => nomatch h
theorem rd (idx : RegIdx) : Statement (.rd idx) := fun _ h => nomatch h

end Sys2Proof.Laws.UnusedFieldsZero
end

