-- ==== Sys2Proof/Tests/Slice0.lean ====
section
/-!
SUPPORT. Tests: the WellFormed check, words written out from the spec's encodings, single steps and
known answers of 95_test_vectors.md (X1 to X22) and 30_encoding.md, and for each statement with
hypotheses a witness that meets them. Expected values are the spec's.
-/
namespace Sys2Proof.Tests

open Sys2Proof.Machine Sys2Proof.Safety

-- one kernel evaluation after the other: side by side, each would hold a thread of its own
set_option Elab.async false

/-! ### Helpers -/

/-- A view of the next state, none where there is none. -/
def after {α : Type} (f : State → α) : Out → Option α
  | .next t => some (f t)
  | .fault _ => none
  | .refused _ => none

/-- STATUS and RES after an instruction. -/
def statusRes (t : State) : BitVec 32 × VecReg := (statusWord t, t.res)

/-- A command run to its end in n engine steps. -/
def runs (i : Instr) (n : Nat) (s : State) : Out :=
  match exec i s with
  | .next t => engineRun n t
  | .fault f => .fault f
  | .refused x => .refused x

theorem next_of_after {α : Type} {f : State → α} {o : Out} (h : (after f o).isSome) :
    ∃ t, o = .next t := by
  cases o with
  | next t => exact ⟨t, rfl⟩
  | fault _ => simp [after] at h
  | refused _ => simp [after] at h

/-- OPA of a length and a value. -/
def opaState (len : LenTag) (bits : Data) : State := { State.reset with opa := ⟨len, bits⟩ }

/-- The operands of X1, with the same key in every slot. -/
def desState : State :=
  { State.reset with
    opa := ⟨64, 0x0123456789ABCDEF⟩
    key1 := ⟨64, 0x133457799BBCDFF1⟩
    key2 := ⟨64, 0x133457799BBCDFF1⟩
    key3 := ⟨64, 0x133457799BBCDFF1⟩ }

/-- The operands of X3. -/
def feistelState : State :=
  { State.reset with opa := ⟨32, 0xF0AAF0AA⟩, opb := ⟨48, 0x1B02EFFC7072⟩ }

/-- A caller's table of eight entries. -/
def tblState (ts : List (BitVec 8)) (n : BitVec 8) (opa : VecReg) : State :=
  { State.reset with
    tbl := Vector.ofFn fun j => ts.getD j.val 0
    tblLen := n
    opa := opa }

/-- DES.ENC K1 has just been accepted. -/
def busyState : State := acceptedState 0x004 1 0x0123456789ABCDEF desState

/-! ### WellFormed: its one check, the reserved indices (R198) -/

theorem test_reserved_wr_refused : WellFormed (.wr 0x09 0 0) = false := by decide
theorem test_reserved_rd_refused : WellFormed (.rd 0x80) = false := by decide
theorem test_reserved_ranges :
    ([0x09, 0x0F, 0x20, 0x3F, 0x80, 0xFF].all fun i => reservedIndex i) = true := by decide
theorem test_mapped_ranges :
    ([0x00, 0x08, 0x10, 0x1F, 0x40, 0x7F].all fun i => WellFormed (.rd i)) = true := by decide

/-! ### Decoding: every constructor from a word written out bit by bit (R80, R86) -/

theorem test_decode_permCustom :
    decodeCommand 0b000000000000000000000_000_00_0_0_0001#32 = .ok .permCustom := by decide
theorem test_decode_permIp :
    decodeCommand 0b000000000000000000000_001_00_0_0_0001#32 = .ok .permIp := by decide
theorem test_decode_permFp :
    decodeCommand 0b000000000000000000000_010_00_0_0_0001#32 = .ok .permFp := by decide
theorem test_decode_permE :
    decodeCommand 0b000000000000000000000_011_00_0_0_0001#32 = .ok .permE := by decide
theorem test_decode_permP :
    decodeCommand 0b000000000000000000000_100_00_0_0_0001#32 = .ok .permP := by decide
theorem test_decode_permPc1 :
    decodeCommand 0b000000000000000000000_101_00_0_0_0001#32 = .ok .permPc1 := by decide
theorem test_decode_permPc2 :
    decodeCommand 0b000000000000000000000_110_00_0_0_0001#32 = .ok .permPc2 := by decide
theorem test_decode_ksched :
    decodeCommand 0b000000000000000000000_000_10_0_0_0010#32 = .ok (.ksched .k3) := by decide
theorem test_decode_feistel :
    decodeCommand 0b000000000000000000000_000_00_0_0_0011#32 = .ok .feistel := by decide
theorem test_decode_desEnc :
    decodeCommand 0b000000000000000000000_000_01_0_0_0100#32 = .ok (.desEnc .k2) := by decide
theorem test_decode_desDec :
    decodeCommand 0b000000000000000000000_000_00_0_1_0100#32 = .ok (.desDec .k1) := by decide
theorem test_decode_tdes2Enc :
    decodeCommand 0b000000000000000000000_000_00_0_0_0101#32 = .ok .tdes2Enc := by decide
theorem test_decode_tdes2Dec :
    decodeCommand 0b000000000000000000000_000_00_0_1_0101#32 = .ok .tdes2Dec := by decide
theorem test_decode_tdes3Enc :
    decodeCommand 0b000000000000000000000_000_00_1_0_0101#32 = .ok .tdes3Enc := by decide
theorem test_decode_tdes3Dec :
    decodeCommand 0b000000000000000000000_000_00_1_1_0101#32 = .ok .tdes3Dec := by decide

/-- P5 line 2: `1 04 3F 133457799BBCDFF1`. -/
theorem test_decode_wr :
    decodeHt 0x1_04_3F_133457799BBCDFF1#81 = .wr 0x04 63 0x133457799BBCDFF1 := by decide

/-- P1 line 12: `0 1F 00 0000000000000000`. -/
theorem test_decode_rd : decodeHt 0x0_1F_00_0000000000000000#81 = .rd 0x1F := by decide

/-- LEN and DATA of a read are ignored (R86). -/
theorem test_decode_rd_ignores : decodeHt 0x0_07_FF_FFFFFFFFFFFFFFFF#81 = .rd 0x07 := by decide

/-- X15: the words that do not decode. -/
theorem test_illegal_words :
    (([0x00000000, 0x00000006, 0x0000000F, 0x000000C4, 0x000000C2, 0x00000701, 0x00000104,
      0x00000013, 0x00000011, 0x00000012, 0x00000024, 0x00000045, 0x00000141, 0x00000804,
      0x80000004, 0xFFFFFFFF] : List CmdWord).all
      fun w => (decodeCommand w).toOption.isNone) = true := by decide

theorem test_encode_words :
    encode .permPc2 = .cw 0x601 ∧ encode (.ksched .k2) = .cw 0x042 ∧
    encode (.desDec .k3) = .cw 0x094 ∧ encode .tdes3Dec = .cw 0x035 ∧
    encode (.wr 0x02 64 0x85E813540F0AB405) = .ht 0x1_02_40_85E813540F0AB405#81 ∧
    encode (.rd 0x01) = .ht 0x0_01_00_0000000000000000#81 := by decide

/-- A table row's word as the first instruction after reset. -/
theorem test_fetch_command :
    after statusRes (step (State.reset.withFetchWord 32 0x101)) =
      some (0x00000050, ⟨0, 0⟩) := by decide +kernel

theorem test_fetch_wr :
    after State.key1 (step (State.reset.withFetchWord 88 0x1043F133457799BBCDFF1)) =
      some ⟨63, 0x133457799BBCDFF1⟩ := by decide +kernel

theorem test_fetch_rd :
    after State.received (step (State.reset.withFetchWord 88 0x010000000000000000000)) =
      some [⟨48, 0⟩] := by decide +kernel

/-! ### The permutation commands (X6, X7) -/

theorem test_permIp :
    after statusRes (runs .permIp 1 (opaState 64 0x0123456789ABCDEF)) =
      some (0x00000502, ⟨64, 0xCC00CCFFF0AAF0AA⟩) := by decide +kernel

theorem test_permIp_short :
    after statusRes (exec .permIp (opaState 32 0x12345678)) = some (0x00000050, ⟨0, 0⟩) := by
  decide +kernel

theorem test_permFp :
    after statusRes (runs .permFp 1 (opaState 64 0x8000000000000000)) =
      some (0x00000502, ⟨64, 0x0000000000000040⟩) := by decide +kernel

theorem test_permE :
    after statusRes (runs .permE 1 (opaState 32 0x12345678)) =
      some (0x00000502, ⟨48, 0x0A41A82AC3F0⟩) := by decide +kernel

theorem test_permE_long :
    after statusRes (runs .permE 1 (opaState 64 0x123456789ABCDEF0)) =
      some (0x00000502, ⟨48, 0x0A41A82AC3F0⟩) := by decide +kernel

theorem test_permP :
    after statusRes (runs .permP 1 (opaState 32 0x5C82B597)) =
      some (0x00000502, ⟨32, 0x234AA9BB⟩) := by decide +kernel

theorem test_permPc1 :
    after statusRes (runs .permPc1 1 (opaState 63 0x099A2BBCCDDE6FF8)) =
      some (0x00000502, ⟨56, 0xF0CCAAF556678F⟩) := by decide +kernel

theorem test_permPc1_short :
    after statusRes (exec .permPc1 (opaState 62 1)) = some (0x00000050, ⟨0, 0⟩) := by
  decide +kernel

theorem test_permPc2 :
    after statusRes (runs .permPc2 1 (opaState 56 0xE19955FAACCF1E)) =
      some (0x00000502, ⟨48, 0x1B02EFFC7072⟩) := by decide +kernel

theorem test_permCustom :
    after statusRes (runs .permCustom 1 (tblState [8, 7, 6, 5, 4, 3, 2, 1] 8 ⟨8, 0xB1⟩)) =
      some (0x00000502, ⟨8, 0x8D⟩) := by decide +kernel

/-- Entry 0, then entry 9 of an 8-bit vector, a table too long, and the order of the checks. -/
theorem test_permCustom_refused :
    after statusWord (exec .permCustom (tblState [8, 7, 6, 5, 4, 3, 2, 0] 8 ⟨8, 0xB1⟩)) =
      some 0x00000050 ∧
    after statusWord (exec .permCustom (tblState [8, 7, 6, 5, 4, 3, 2, 9] 8 ⟨8, 0xB1⟩)) =
      some 0x00000050 ∧
    after statusWord (exec .permCustom (tblState [] 200 ⟨65, 1⟩)) = some 0x00000060 ∧
    after statusWord (exec .permCustom (tblState [] 0 ⟨65, 1⟩)) = some 0x00000010 := by
  decide +kernel

/-! ### KSCHED and FEISTEL (X2, X3, X4) -/

/-- X2 and P4 line 2: RK[1], RK[9] and RK[16], and STATUS. -/
theorem test_ksched :
    after (fun t => (statusWord t, t.rk[0], t.rk[8], t.rk[15])) (runs (.ksched .k2) 1 desState) =
      some (0x00000504, 0x1B02EFFC7072, 0xE0DBEBEDE781, 0xCB3D8B0E17F5) := by decide +kernel

theorem test_ksched_slot :
    after statusWord (exec (.ksched .k3) { desState with key3 := ⟨56, 0xF0CCAAF556678F⟩ }) =
      some 0x00000020 := by decide +kernel

theorem test_feistel :
    after statusRes (runs .feistel 1 feistelState) = some (0x00000502, ⟨32, 0x234AA9BB⟩) := by
  decide +kernel

/-- X4: the wrap-around of E, and the order of the checks. -/
theorem test_feistel_cases :
    feistel 0x80000000 0 = 0xD0585B9E ∧ feistel 0x00000001 0 = 0xD05AD19C ∧
    feistel 0x12345678 0x0123456789AB = 0xCA23B070 ∧
    after statusWord (exec .feistel { State.reset with opa := ⟨48, 0⟩, opb := ⟨32, 0⟩ }) =
      some 0x00000010 ∧
    after statusWord (exec .feistel { State.reset with opa := ⟨32, 0⟩, opb := ⟨64, 0⟩ }) =
      some 0x00000020 := by decide +kernel

/-! ### DES (X1, X12, X13, X14) -/

theorem test_des_known_answer :
    des 0x0123456789ABCDEF 0x133457799BBCDFF1 .encrypt = 0x85E813540F0AB405 := by decide +kernel

theorem test_des_decrypt :
    des 0x85E813540F0AB405 0x133457799BBCDFF1 .decrypt = 0x0123456789ABCDEF := by decide +kernel

theorem test_des_published :
    des 0x8000000000000000 0x0101010101010101 .encrypt = 0x95F8A5E5DD31D900 := by decide +kernel

theorem test_desEnc_accepted :
    after (fun t => (statusWord t, t.blk)) (exec (.desEnc .k1) desState) =
      some (0x00010101, 0x0123456789ABCDEF) := by decide +kernel

/-- X14: the selected slot is KEY2, and the block is checked before the key. -/
theorem test_desEnc_refused :
    after statusWord (exec (.desEnc .k2) { desState with key2 := ⟨0, 0⟩ }) = some 0x00000020 ∧
    after statusWord (exec (.desEnc .k1) State.reset) = some 0x00000010 := by decide +kernel

theorem test_desDec_accepted :
    after (fun t => (statusWord t, t.cmd)) (exec (.desDec .k1) { desState with rkValid := true }) =
      some (0x00010105, 0x00000014) := by decide +kernel

theorem test_desDec_refused :
    after statusWord (exec (.desDec .k1) { desState with key1 := ⟨65, 1⟩ }) = some 0x00000020 := by
  decide +kernel

/-- X1: L_1 and R_1 of encryption from L_0 and R_0, and STATUS after round 1 (X13). -/
theorem test_round_encrypt :
    after (fun t => (t.l, t.r, statusWord t)) (engineStep { busyState with
      rk := ksched 0x133457799BBCDFF1
      rkValid := true
      l := 0xCC00CCFF
      r := 0xF0AAF0AA
      phase := .permuted }) = some (0xF0AAF0AA, 0xEF4A6544, 0x00010B05) := by decide +kernel

/-- X1: row 2 of the decryption, which uses K_15. -/
theorem test_round_decrypt :
    after (fun t => (t.l, t.r, statusWord t)) (engineStep { busyState with
      cmd := 0x014
      rk := ksched 0x133457799BBCDFF1
      rkValid := true
      l := 0x43423234
      r := 0xC28C960D
      round := 1
      phase := .round }) = some (0xC28C960D, 0x18C3155A, 0x00011305) := by decide +kernel

/-- X1, X13: the pre-output is R_16 then L_16, and FP of it is the ciphertext. -/
theorem test_last_steps :
    after (fun t => (statusWord t, t.blk)) (engineStep { busyState with
      rkValid := true
      l := 0x43423234
      r := 0x0A4CD995
      round := 16
      phase := .round }) = some (0x00018405, 0x0A4CD99543423234) ∧
    after (fun t => (statusWord t, t.blk, t.res)) (engineStep { busyState with
      rkValid := true
      blk := 0x0A4CD99543423234
      round := 16
      phase := .swapped }) =
        some (0x00018506, 0x85E813540F0AB405, ⟨64, 0x85E813540F0AB405⟩) := by decide +kernel

/-! ### Triple DES (X13, X14, X21, X22) -/

theorem test_tdes3 :
    tdes 0x5468652071756663 0x0123456789ABCDEF 0x23456789ABCDEF01 (some 0x456789ABCDEF0123)
      .encrypt = 0xA826FD8CE53B855F := by decide +kernel

theorem test_tdes3_decrypt :
    tdes 0x5468652071756663 0x0123456789ABCDEF 0x23456789ABCDEF01 (some 0x456789ABCDEF0123)
      .decrypt = 0x6725870A7B3A3BAE := by decide +kernel

theorem test_tdes2 :
    tdes 0x0123456789ABCDEF 0x0123456789ABCDEF 0x23456789ABCDEF01 none .encrypt =
      0xA6BB373E196B375E := by decide +kernel

theorem test_tdes2_decrypt :
    tdes 0x0123456789ABCDEF 0x0123456789ABCDEF 0x23456789ABCDEF01 none .decrypt =
      0xDBA49A08CF7691EB := by decide +kernel

theorem test_tdes2Enc_ignores_key3 :
    after statusWord (exec .tdes2Enc { desState with key3 := ⟨0, 0⟩ }) = some 0x00010101 := by
  decide +kernel

theorem test_tdes2Enc_refused :
    after statusWord (exec .tdes2Enc { desState with key2 := ⟨56, 0⟩ }) = some 0x00000020 := by
  decide +kernel

theorem test_tdes2Dec_accepted :
    after State.cmd (exec .tdes2Dec desState) = some 0x00000015 := by decide +kernel

theorem test_tdes3Enc_needs_key3 :
    after statusWord (exec .tdes3Enc { desState with key3 := ⟨0, 0⟩ }) = some 0x00000020 := by
  decide +kernel

theorem test_tdes3Dec_block_first :
    after statusWord (exec .tdes3Dec State.reset) = some 0x00000010 := by decide +kernel

/-- R177: the keys and directions of the stages of TDES3.DEC. -/
theorem test_tdes3Dec_stages :
    (tdesStageKey 0x035 1, tdesStageDir 0x035 1, tdesStageKey 0x035 2, tdesStageDir 0x035 2,
      tdesStageKey 0x035 3, tdesStageDir 0x035 3) =
      (.k3, .decrypt, .k2, .encrypt, .k1, .decrypt) := by decide

/-- X13: the stage ends with BUSY still 1, and the next one begins. -/
theorem test_tdes_between_stages :
    after statusWord (engineStep { busyState with
      cmd := 0x025
      rkValid := true
      round := 16
      phase := .swapped }) = some 0x00018505 ∧
    after (fun t => (statusWord t, t.blk)) (engineStep { busyState with
      cmd := 0x025
      rkValid := true
      round := 16
      phase := .final
      blk := 0xA28E91724C4BBA31 }) = some (0x00020105, 0xA28E91724C4BBA31) := by decide +kernel

/-! ### Transfers (X16) -/

theorem test_wr_vector :
    after State.opa (exec (.wr 0x02 6 0xFF) State.reset) = some ⟨6, 0x3F⟩ ∧
    after State.opa (exec (.wr 0x02 8 0x1A5) State.reset) = some ⟨8, 0xA5⟩ ∧
    after State.opa (exec (.wr 0x02 200 0xFFFFFFFFFFFFFFFF) State.reset) =
      some ⟨200, 0xFFFFFFFFFFFFFFFF⟩ ∧
    after State.tblLen (exec (.wr 0x08 0 0x101) State.reset) = some 1 := by decide +kernel

/-- `WR CMD, 77, 0xAAAAAAAA00000004` is DES.ENC K1; a word that is Illegal is stored in CMD. -/
theorem test_wr_cmd :
    after statusWord (exec (.wr 0x00 77 0xAAAAAAAA00000004) desState) = some 0x00010101 ∧
    after (fun t => (statusWord t, t.cmd)) (exec (.wr 0x00 0 0xC4) desState) =
      some (0x00000060, 0xC4) := by decide +kernel

theorem test_rd :
    after State.received (exec (.rd 0x10) State.reset) = some [⟨48, 0⟩] ∧
    after State.received (exec (.rd 0x07) State.reset) = some [⟨0, 0⟩] ∧
    after State.received (exec (.rd 0x04) desState) = some [⟨64, 0x133457799BBCDFF1⟩] ∧
    after State.received (exec (.rd 0x01) busyState) = some [⟨0, 0x00010101⟩] := by decide +kernel

theorem test_reserved_index :
    exec (.wr 0x09 0 0) State.reset = .refused (.reservedIndex 0x09) ∧
    exec (.rd 0x09) State.reset = .refused (.reservedIndex 0x09) := ⟨rfl, rfl⟩

/-! ### The hexadecimal boundary and the notation (X5, P1, P3, P5) -/

theorem test_hex_to_bits :
    hexToBits "85".toList 8 = .ok 0x85 ∧
    hexToBits "0123456789abcdef".toList 64 = .ok 0x0123456789ABCDEF ∧
    hexToBits "0123456789ABCDE".toList 64 = .error .invalidHexLength ∧
    hexToBits "012345678 ABCDEF".toList 64 = .error .invalidHexDigit ∧
    hexToBits "G".toList 8 = .error .invalidHexLength := by decide +kernel

theorem test_bits_to_hex :
    bitsToHex 0b101010#6 = "2A".toList ∧ bitsToHex 1#1 = "1".toList ∧
    bitsToHex 0b10000#5 = "10".toList ∧ bitsToHex 0#28 = "0000000".toList ∧
    bitsToHex 0#0 = [] := by decide +kernel

theorem test_assemble_program :
    assembleAll [.ldbits .key1 63 0x133457799BBCDFF1, .command (.desEnc .k1), .rderr, .wait,
        .ldtbl [8, 7], .ld .opa "B1".toList, .rdhex .res] =
      .ok [.xfer 0x1_04_3F_133457799BBCDFF1#81, .xfer 0x1_00_00_0000000000000004#81,
        .xfer 0x0_01_00_0000000000000000#81, .wait, .xfer 0x1_40_00_0000000000000008#81,
        .xfer 0x1_41_00_0000000000000007#81, .xfer 0x1_08_00_0000000000000002#81,
        .xfer 0x1_02_08_00000000000000B1#81, .xfer 0x0_07_00_0000000000000000#81] := by
  decide +kernel

/-- R65, R95 with R22, D2: a length above 64 can be declared; a number of more than 64 bits cannot be
written. -/
theorem test_assemble_long :
    assemble (.ld .opa "00123456789ABCDEF".toList) =
      .ok [.xfer 0x1_02_44_0123456789ABCDEF#81] ∧
    assemble (.ldhex .key1 "00123456789ABCDEF".toList 68) =
      .ok [.xfer 0x1_04_44_0123456789ABCDEF#81] ∧
    assemble (.ld .opa "10000000000000000".toList) = .error .tooLong := by decide +kernel

theorem test_parse_lines :
    parseLine "LDBITS KEY1, 63, 0x133457799BBCDFF1".toList =
      .ok (some (.ldbits .key1 63 0x133457799BBCDFF1)) ∧
    parseLine "DES.DEC K1 ; decrypt back".toList = .ok (some (.command (.desDec .k1))) ∧
    parseLine "LDTBL 8, 7, 6".toList = .ok (some (.ldtbl [8, 7, 6])) ∧
    parseLine "RD RK16".toList = .ok (some (.rd (.rk 15))) ∧
    parseLine "WR TBL_LEN, 0, 65".toList = .ok (some (.wr .tblLen 0 65)) ∧
    parseLine "LD OPA, h\"B1\"".toList = .ok (some (.ld .opa "B1".toList)) ∧
    parseLine "WAIT".toList = .ok (some .wait) ∧
    parseLine "; a comment".toList = .ok none ∧
    parseLine "HALT".toList = .error .badLine := by decide +kernel

/-- P1 line 6: 85E813540F0AB405; P5 line 4: InvalidKeyLength. -/
theorem test_present :
    presentHex ⟨64, 0x85E813540F0AB405⟩ = "85E813540F0AB405".toList ∧
    presentErr ⟨0, 0x00000020⟩ = some .invalidKeyLength := by decide +kernel

/-! ### Witnesses: each meets all the hypotheses of the statement it names, clause by clause -/

/-- The read of STATUS, as a transaction: `0 01 00 0000000000000000`. -/
def statusRead : HostEvent := .xfer 0x0_01_00_0000000000000000#81

/-- The read of RES. -/
def resRead : HostEvent := .xfer 0x0_07_00_0000000000000000#81

theorem witness_IllegalWordIsStoredAndRefused :
    State.reset.busy = false ∧ ∀ i, decodeCommand ((0xC4#64).setWidth 32) ≠ .ok i :=
  ⟨rfl, fun _ h => nomatch h⟩

theorem witness_MnemonicIsWriteOfCommandWord :
    encode .permIp = .cw 0x101 ∧ (0xAAAAAAAA00000101#64).setWidth 32 = 0x101#32 ∧
    encode .tdes3Dec = .cw 0x035 ∧ (0x035#64).setWidth 32 = 0x035#32 := by decide

theorem witness_StepRunsTheHostTransaction :
    desState.busy = false ∧
    { desState with inputs := [.xfer 0x1_00_00_0000000000000004#81, resRead] }.inputs =
      .xfer (transactionOf (.desEnc .k1)) :: [resRead] := by decide

theorem witness_IdleMachineKeepsItsState :
    State.reset.busy = false ∧ State.reset.inputs = [] := by decide

theorem witness_BusyEngineHoldsTransactions :
    busyState.busy = true ∧ busyState.inputs = [] ∧
    { busyState with inputs := [resRead] }.busy = true ∧
    ∃ w rest, { busyState with inputs := [resRead] }.inputs = .xfer w :: rest ∧
      decodeHt w ≠ .rd 0x01 := ⟨rfl, rfl, rfl, _, _, rfl, by decide⟩

theorem witness_HeldInstructionHasNoEffect :
    busyState.busy = true ∧ Instr.wr 0x01 0 0 ≠ .rd 0x01 ∧ Instr.rd 0x07 ≠ .rd 0x01 ∧
    Instr.desEnc .k1 ≠ .rd 0x01 := by decide

theorem witness_BusyStatusReadInterleaves :
    busyState.busy = true ∧
    { busyState with inputs := [statusRead] }.inputs =
      .xfer 0x0_01_00_0000000000000000#81 :: [] ∧
    decodeHt 0x0_01_00_0000000000000000#81 = .rd 0x01 := by decide

theorem witness_WaitPollsUntilNotBusy :
    { desState with inputs := [.wait] }.inputs = .wait :: [] ∧ desState.busy = false ∧
    { busyState with inputs := [.wait] }.inputs = .wait :: [] ∧ busyState.busy = true := by decide

theorem witness_ResetEventResetsEverything :
    { busyState with inputs := [.reset, resRead] }.inputs = .reset :: [resRead] := by decide

theorem witness_ReadReturnsTheRegister :
    desState.busy = false ∧ busyState.busy = true := by decide

/-- The reserved ranges at both ends, and well-formed instructions at the mapped indices beside
them. -/
theorem witness_OnlyReservedIndicesAreRefused :
    State.reset.busy = false ∧
    (∀ i ∈ [0x09#8, 0x0F#8], 0x09 ≤ i.toNat ∧ i.toNat ≤ 0x0F) ∧
    (∀ i ∈ [0x20#8, 0x3F#8], 0x20 ≤ i.toNat ∧ i.toNat ≤ 0x3F) ∧
    (∀ i ∈ [0x80#8, 0xFF#8], 0x80 ≤ i.toNat) ∧
    (∀ i ∈ [0x08#8, 0x10#8, 0x1F#8, 0x40#8, 0x7F#8], WellFormed (.wr i 0 0) = true) := by decide

theorem witness_VectorWriteStoresLengthAndData :
    State.reset.busy = false ∧ (0#8).toNat ≤ 64 ∧ (64#8).toNat ≤ 64 ∧ 64 < (65#8).toNat := by decide

theorem witness_TableWriteStoresLowByte : desState.busy = false ∧ (63 : Fin 64) ≠ 0 := by decide

theorem witness_ReadOnlyWriteHasNoEffect :
    ∀ i ∈ [0x01#8, 0x07#8, 0x10#8, 0x1F#8],
      i = 0x01 ∨ i = 0x07 ∨ (0x10 ≤ i.toNat ∧ i.toNat ≤ 0x1F) := by decide

theorem witness_TransferFrame :
    (∀ i ∈ [0x01#8, 0x02#8, 0x07#8, 0x08#8, 0x1F#8, 0x40#8, 0x7F#8],
      i ≠ 0x00 ∧ ∃ t, exec (.wr i 8 0xA5) State.reset = .next t) ∧
    ∃ t, exec (.rd 0x7F) State.reset = .next t :=
  ⟨fun i hi => ⟨by revert i; decide, next_of_after (f := State.busy) (by revert i; decide +kernel)⟩,
    next_of_after (f := State.busy) (by decide +kernel)⟩

/-- Each check of PERM.CUSTOM and the acceptance, at the edges of their ranges. -/
theorem witness_PermValidation :
    (∀ s ∈ [tblState [] 65 ⟨65, 0⟩, tblState [] 64 ⟨65, 0⟩, tblState [9] 1 ⟨8, 0⟩,
      tblState [8] 1 ⟨8, 0⟩, opaState 65 0, opaState 0 0, opaState 64 0], s.busy = false) ∧
    (64 < (tblState [] 65 ⟨65, 0⟩).tblLen.toNat) ∧
    (¬ 64 < (tblState [] 64 ⟨65, 0⟩).tblLen.toNat ∧
      64 < (tblState [] 64 ⟨65, 0⟩).opa.len.toNat) ∧
    (∃ j : Fin 64, j.val < (tblState [9] 1 ⟨8, 0⟩).tblLen.toNat ∧
      (8 : Nat) < ((tblState [9] 1 ⟨8, 0⟩).tbl[j]).toNat) := by
  refine ⟨by decide, by decide, by decide, 0, by decide⟩

theorem witness_KeyScheduleValidation :
    desState.busy = false ∧ desState.key1.len = 64 ∧ State.reset.busy = false ∧
    State.reset.key1.len ≠ 64 := by decide

theorem witness_FeistelValidation :
    feistelState.busy = false ∧ feistelState.opa.len = 32 ∧ feistelState.opb.len = 48 ∧
    desState.opa.len ≠ 32 ∧ (opaState 32 0).opb.len ≠ 48 ∧ (opaState 32 0).busy = false := by decide

theorem witness_DesValidation :
    desState.busy = false ∧ desState.opa.len = 64 ∧ (keyslot desState .k3).len = 64 ∧
    State.reset.opa.len ≠ 64 ∧ (opaState 64 0).opa.len = 64 ∧
    (keyslot (opaState 64 0) .k3).len ≠ 64 ∧ (opaState 64 0).busy = false := by decide

theorem witness_TdesValidation :
    desState.busy = false ∧ desState.opa.len = 64 ∧ desState.key1.len = 64 ∧
    desState.key2.len = 64 ∧ desState.key3.len = 64 ∧
    { desState with key2 := ⟨63, 0⟩ }.key2.len ≠ 64 ∧
    { desState with key3 := ⟨0, 0⟩ }.key3.len ≠ 64 := by decide

theorem witness_CommandFrame :
    encode (.desEnc .k1) = .cw 0x004 ∧ (∃ t, exec (.desEnc .k1) desState = .next t) ∧
    after State.blk (exec (.desEnc .k1) desState) = some 0x0123456789ABCDEF ∧
    desState.blk ≠ 0x0123456789ABCDEF ∧
    encode .permIp = .cw 0x101 ∧ ∃ t, exec .permIp State.reset = .next t :=
  ⟨rfl, next_of_after (f := State.busy) (by decide +kernel), by decide +kernel, by decide, rfl,
    next_of_after (f := State.busy) (by decide +kernel)⟩

/-- For each of the seven commands an input length at which every entry fits, the least one for the
fixed tables: 64, 64, 32, 32, 63 and 56. -/
theorem witness_PermResult :
    (∀ s ∈ [tblState [8, 1, 1] 3 ⟨8, 0xB1⟩, opaState 64 1, opaState 32 1, opaState 63 1,
      opaState 56 1], s.busy = false ∧ s.opa.len.toNat ≤ 64) ∧
    (tblState [8, 1, 1] 3 ⟨8, 0xB1⟩).tblLen.toNat ≤ 64 ∧
    (∀ k ∈ ((tblState [8, 1, 1] 3 ⟨8, 0xB1⟩).tbl.toList.take 3).map BitVec.toNat, 1 ≤ k ∧ k ≤ 8) ∧
    (∀ k ∈ ipTable, 1 ≤ k ∧ k ≤ 64) ∧ (∀ k ∈ fpTable, 1 ≤ k ∧ k ≤ 64) ∧
    (∀ k ∈ eTable, 1 ≤ k ∧ k ≤ 32) ∧ (∀ k ∈ pTable, 1 ≤ k ∧ k ≤ 32) ∧
    (∀ k ∈ pc1Table, 1 ≤ k ∧ k ≤ 63) ∧ (∀ k ∈ pc2Table, 1 ≤ k ∧ k ≤ 56) := by decide +kernel

theorem witness_KeyScheduleResult :
    encode (.ksched .k2) = .cw 0x042 ∧ desState.busy = false ∧ (keyslot desState .k2).len = 64 := by
  decide

theorem witness_FeistelResult :
    feistelState.busy = false ∧ feistelState.opa.len = 32 ∧ feistelState.opb.len = 48 := by decide

theorem witness_DesCommandComputesDes :
    desState.busy = false ∧ desState.opa.len = 64 ∧ ∀ k ∈ [KeySlot.k1, .k2, .k3],
      (keyslot desState k).len = 64 := by decide

theorem witness_TdesCommandComputesTdes :
    desState.busy = false ∧ desState.opa.len = 64 ∧ desState.key1.len = 64 ∧
    desState.key2.len = 64 ∧ desState.key3.len = 64 := by decide

theorem witness_ReadAfterDesReturnsItsResult :
    desState.busy = false ∧ desState.opa.len = 64 ∧ (keyslot desState .k1).len = 64 ∧
    { desState with inputs := [.xfer 0x1_00_00_0000000000000004#81, resRead] }.inputs =
      .xfer (transactionOf (.desEnc .k1)) :: .xfer (transactionOf (.rd 0x07)) :: [] := by decide

/-- PERM.IP in progress. -/
def permBusy : State := acceptedState 0x101 0 0 (opaState 64 1)

/-- KSCHED K1 in progress. -/
def kschedBusy : State := acceptedState 0x002 0 0 desState

theorem witness_EngineStepFrame :
    cwOp permBusy.cmd = 1 ∧ (∃ t, engineStep permBusy = .next t) ∧
    cwOp kschedBusy.cmd = 2 ∧ (∃ t, engineStep kschedBusy = .next t) ∧
    IsCipher busyState.cmd ∧ ∃ t, engineStep busyState = .next t :=
  ⟨by decide, next_of_after (f := State.busy) (by decide +kernel), by decide,
    next_of_after (f := State.busy) (by decide +kernel), by decide,
    next_of_after (f := State.busy) (by decide +kernel)⟩

theorem witness_OperandsAreNeverWritten :
    encode (.desEnc .k1) = .cw 0x004 ∧ (∃ t, exec (.desEnc .k1) desState = .next t) ∧
    (∃ t, exec (.wr 0x00 0 0xC4) desState = .next t) ∧ ∃ t, engineStep busyState = .next t :=
  ⟨rfl, next_of_after (f := State.busy) (by decide +kernel),
    next_of_after (f := State.busy) (by decide +kernel),
    next_of_after (f := State.busy) (by decide +kernel)⟩

theorem witness_RoundKeysHaveTwoWriters :
    (∃ t, exec .permIp State.reset = .next t) ∧
    after (fun t => decide (t.rk ≠ kschedBusy.rk)) (engineStep kschedBusy) = some true ∧
    after (fun t => decide (t.rk ≠ busyState.rk)) (engineStep busyState) = some true :=
  ⟨next_of_after (f := State.busy) (by decide +kernel), by decide +kernel, by decide +kernel⟩

theorem witness_OnlyResetClearsRkValid :
    (∀ rest, ({ desState with rkValid := true, inputs := [resRead] } : State).inputs ≠
      .reset :: rest) ∧
    after State.rkValid (step { desState with rkValid := true, inputs := [resRead] }) =
      some true := by
  refine ⟨fun _ h => ?_, by decide +kernel⟩
  simp [resRead] at h

/-- The first clause in a state that no run reaches, the second at both errors. -/
theorem witness_HexErrorsNeverReachErr :
    after State.err (step { State.reset with err := .invalidHexLength }) = some .invalidHexLength ∧
    after State.err (step { State.reset with err := .invalidHexDigit }) = some .invalidHexDigit ∧
    hexToBits ['G'] 8 = .error .invalidHexLength ∧
    hexToBits ['G'] (4 * ['G'].length) = .error .invalidHexDigit ∧
    hexToBits ['G'] 4 = .error .invalidHexDigit := by decide +kernel

theorem witness_EngineStepsMoveForward :
    after progress (engineStep busyState) = some 1200 ∧ progress busyState = 1100 := by
  decide +kernel

/-- Two states that agree on the operands only: the second one has been used before. -/
theorem witness_ResultDependsOnOperandsOnly :
    encode .permIp = .cw 0x101 ∧ (opaState 64 1).busy = false ∧
    NamedOperands .permIp (opaState 64 1)
      { opaState 64 1 with rkValid := true, res := ⟨64, 7⟩, l := 5, key1 := ⟨64, 9⟩ } ∧
    (∃ u v, exec .permIp (opaState 64 1) = .next u ∧ engineRun 1 u = .next v) ∧
    ∃ u v, exec .permIp { opaState 64 1 with rkValid := true, res := ⟨64, 7⟩, l := 5, key1 := ⟨64, 9⟩ } =
        .next u ∧ engineRun 1 u = .next v :=
  ⟨rfl, rfl, rfl, ⟨_, _, rfl, rfl⟩, _, _, rfl, rfl⟩

/-- The clause about RK: KSCHED K1, whatever the block and the other keys are. -/
theorem witness_ResultDependsOnOperandsOnly_ksched :
    encode (.ksched .k1) = .cw 0x002 ∧ cwOp 0x002 = 2 ∧ desState.busy = false ∧
    NamedOperands (.ksched .k1) desState { desState with opa := ⟨3, 1⟩, key2 := ⟨0, 0⟩ } ∧
    after State.busy (exec (.ksched .k1) desState) = some true ∧
    after State.busy (runs (.ksched .k1) 1 desState) = some false ∧
    after State.busy (runs (.ksched .k1) 1
      { desState with opa := ⟨3, 1⟩, key2 := ⟨0, 0⟩ }) = some false :=
  ⟨rfl, by decide, rfl, rfl, by decide +kernel, by decide +kernel, by decide +kernel⟩

/-- A command in progress meets the invariant. -/
theorem witness_inv_busy : Inv busyState where
  rules := by constructor <;> decide
  inProgress _ := ⟨rfl, rfl, .des .k1 (by decide) (by decide) (by decide),
    ⟨by decide, fun _ => by decide, by decide, rfl⟩⟩

/-- The state after a completed command meets it too. -/
theorem witness_inv_done : Inv (resultState 0x101 ⟨64, 1⟩ (opaState 64 1)) where
  rules := by constructor <;> decide
  inProgress h := nomatch h

theorem witness_EveryStepKeepsTheInvariant :
    Inv busyState ∧ (∃ t, step busyState = .next t) ∧
    Inv (resultState 0x101 ⟨64, 1⟩ (opaState 64 1)) ∧
    ∃ t, step (resultState 0x101 ⟨64, 1⟩ (opaState 64 1)) = .next t :=
  ⟨witness_inv_busy, next_of_after (f := State.busy) (by decide +kernel), witness_inv_done,
    next_of_after (f := State.busy) (by decide +kernel)⟩

theorem witness_ReachableStatesObeyTheRules :
    Reachable { State.reset with inputs := [resRead] } := .start _

theorem witness_AcceptedCommandNeverStops : Inv busyState ∧ busyState.busy = true :=
  ⟨witness_inv_busy, rfl⟩

theorem witness_EveryCommandTerminates : Inv busyState ∧ busyState.busy = true :=
  ⟨witness_inv_busy, rfl⟩

theorem witness_PermuteContract :
    (∃ k ∈ [0], k < 1 ∨ 8 < k) ∧ (∃ k ∈ [9], k < 1 ∨ 8 < k) ∧ ∀ k ∈ [1, 8], 1 ≤ k ∧ k ≤ 8 := by
  decide

theorem witness_PermuteIsLinear :
    permute 0b10110001#8 [8, 1] = .ok 0b11#2 ∧ permute 0b10000000#8 [8, 1] = .ok 0b01#2 := by
  decide +kernel

theorem witness_KeyScheduleIgnoresParity :
    ∀ p, 1 ≤ p → p ≤ 64 → p % 8 ≠ 0 →
      pos 0x133457799BBCDFF1#64 p = pos 0x133457799BBCDFF0#64 p := by
  have h : ∀ p ∈ List.range 65, 1 ≤ p → p ≤ 64 → p % 8 ≠ 0 →
      pos 0x133457799BBCDFF1#64 p = pos 0x133457799BBCDFF0#64 p := by decide +kernel
  exact fun p h1 h2 => h p (List.mem_range.mpr (by omega)) h1 h2

theorem witness_FeistelSeesOnlyTheXor :
    gather 48 eTable 0x80000000#32 ^^^ 0#48 = gather 48 eTable 0#32 ^^^ 0x400000000001#48 := by
  decide +kernel

theorem witness_DecryptionTraceMirrorsEncryption : (0 : Nat) ≤ 16 ∧ (16 : Nat) ≤ 16 := by decide

theorem witness_HexRoundTrip :
    (∀ c ∈ ['0', 'a', 'F'], (hexValue c).isSome = true) ∧ 8 % 4 = 0 ∧ 6 % 4 ≠ 0 := by
  simp [hexValue]

/-- A literal of the full 64 bits, and one of 68 bits whose number fits DATA. -/
theorem witness_LoadLiteralHoldsItsVector :
    hexToBits "0123456789ABCDEF".toList (4 * "0123456789ABCDEF".toList.length) =
      .ok 0x0123456789ABCDEF#64 ∧
    4 * "0123456789ABCDEF".toList.length < 2 ^ 8 ∧ (0x0123456789ABCDEF#64).toNat < 2 ^ 64 ∧
    hexToBits "0FFFFFFFFFFFFFFFF".toList (4 * "0FFFFFFFFFFFFFFFF".toList.length) =
      .ok 0xFFFFFFFFFFFFFFFF#68 ∧
    4 * "0FFFFFFFFFFFFFFFF".toList.length < 2 ^ 8 ∧ (0xFFFFFFFFFFFFFFFF#68).toNat < 2 ^ 64 ∧
    State.reset.busy = false := by decide +kernel

end Sys2Proof.Tests
end

section
/-!
PROOFS. Which agent moves (00_scope.md R17; 45_host_transfers.md R195, R196) and what its step answers,
as equations: one for each answer of `nextMove`.
-/
namespace Sys2Proof.Machine

/-! ### The step of a move -/

section
variable {s t : State}

theorem step_of_idle (h : nextMove s = .idle) : step s = .next s := by simp only [step, h]

theorem step_of_engine (h : nextMove s = .engine t) : step s = engineStep t := by
  simp only [step, h]

theorem step_of_host {i : Instr} (h : nextMove s = .host i t) : step s = exec i t := by
  simp only [step, h]

theorem step_of_reset (h : nextMove s = .reset t) : step s = .next t := by simp only [step, h]

/-! ### The move, by BUSY and the head of the input list -/

variable {e : HostEvent} {rest : List HostEvent}

theorem nextMove_idle (hb : s.busy = false) (hi : s.inputs = []) : nextMove s = .idle := by
  simp only [nextMove, hb, hi]

/-- With BUSY = 0 the head of the list happens. -/
theorem nextMove_free (hb : s.busy = false) (hi : s.inputs = e :: rest) :
    nextMove s = hostMove e rest s := by
  simp only [nextMove, hb, hi]

/-- While BUSY = 1 the engine has the only step, unless an event that can happen then is next. -/
theorem nextMove_held (hb : s.busy = true)
    (hi : ∀ e rest, s.inputs = e :: rest → anytime e = false) :
    nextMove s = .engine (engineTurn s) := by
  cases hs : s.inputs with
  | nil => simp only [nextMove, hb, hs]
  | cons e rest => simp [nextMove, hb, hs, hi e rest hs]

/-- While BUSY = 1 and an event that can happen then is next, the free value chooses the agent. -/
theorem nextMove_choice (hb : s.busy = true) (hi : s.inputs = e :: rest) (he : anytime e = true) :
    nextMove s =
      if s.polls < Config.pollsBefore s.turn then hostMove e rest (hostTurn s)
      else .engine (engineTurn s) := by
  simp [nextMove, hb, hi, he]

/-- With BUSY = 0 the read of a WAIT is its last (R95). -/
theorem hostMove_wait_free (hb : s.busy = false) :
    hostMove .wait rest s = .host (.rd 0x01) { s with inputs := rest } :=
  congrArg (fun l => Move.host (.rd 0x01) { s with inputs := l }) (if_neg (by simp [hb]))

/-- While BUSY = 1 a WAIT stays after its read (R95). -/
theorem hostMove_wait_busy (hb : s.busy = true) :
    hostMove .wait rest s = .host (.rd 0x01) { s with inputs := .wait :: rest } :=
  congrArg (fun l => Move.host (.rd 0x01) { s with inputs := l }) (if_pos hb)

end

/-! ### A read of STATUS and a write to CMD -/

/-- A transaction can happen while BUSY = 1 exactly when it reads STATUS (R196). -/
theorem anytime_xfer {w : Ht} : anytime (.xfer w) = true ↔ decodeHt w = .rd 0x01 :=
  decide_eq_true_iff

/-- A read of STATUS has its step in every state (R196). -/
theorem exec_readStatus (s : State) :
    exec (.rd 0x01) s = .next (respond s ⟨0, (statusWord s).setWidth 64⟩) := rfl

/-- The decoder reads a command's own word as that command (R80, R81). -/
theorem decodeCommand_of_encode {i : Instr} {w : CmdWord} (h : encode i = .cw w) :
    decodeCommand w = .ok i := by
  cases i <;> simp only [encode, Encoding.cw.injEq, reduceCtorEq] at h <;> subst h
  case ksched k => cases k <;> rfl
  case desEnc k => cases k <;> rfl
  case desDec k => cases k <;> rfl
  all_goals rfl

/-- While BUSY = 1 a command waits (R195). -/
theorem exec_command_busy {i : Instr} {w : CmdWord} {s : State} (h : encode i = .cw w)
    (hb : s.busy = true) : exec i s = .next s := by
  cases i
  case wr => simp [encode] at h
  case rd => simp [encode] at h
  all_goals exact whenFree_busy hb _

/-- A write of a command's word to CMD is that command (R94, R194). -/
theorem exec_wr_cmd {i : Instr} {w : CmdWord} (s : State) (len : LenTag) {data : Data}
    (h : encode i = .cw w) (hd : data.setWidth 32 = w) :
    exec (.wr 0x00 len data) s = exec i s := by
  cases hb : s.busy with
  | true => rw [exec_command_busy h hb]; exact whenFree_busy hb _
  | false =>
    have hw : exec (.wr 0x00 len data) s = writeCmd data s := whenFree_free hb _
    rw [hw, writeCmd, hd, decodeCommand_of_encode h]
    cases i
    case wr => simp [encode] at h
    case rd => simp [encode] at h
    all_goals rfl

/-- The transaction of an instruction runs that instruction (R94, R190). -/
theorem exec_decodeHt_transactionOf (i : Instr) (s : State) :
    exec (decodeHt (transactionOf i)) s = exec i s := by
  cases h : encode i with
  | cw w =>
    have ht : transactionOf i = cmdWrite w := by simp only [transactionOf, h]
    rw [ht, cmdWrite, decodeHt_write]
    exact exec_wr_cmd s 0 h (by simp)
  | ht w =>
    cases i <;> simp only [encode, Encoding.ht.injEq, reduceCtorEq] at h
    case wr idx len data => rw [transactionOf, encode, decodeHt_write]
    case rd idx => rw [transactionOf, encode, decodeHt_read]

end Sys2Proof.Machine
end

section
/-!
PROOFS. The statements on the agents and their schedule (00_scope.md R17, R18; 45_host_transfers.md
R195, R196; 70_reset_and_hazards.md R240).
-/
namespace Sys2Proof.Proofs

open Sys2Proof.Machine

/-- Settles O6: the head of the list is the host's move, and the transaction of an instruction runs
that instruction. -/
theorem stepRunsTheHostTransaction : Obligations.StepRunsTheHostTransaction := by
  have xfer : ∀ (s : State) (w : Ht) (rest : List HostEvent), s.busy = false →
      s.inputs = .xfer w :: rest → step s = exec (decodeHt w) { s with inputs := rest } :=
    fun _ _ _ hb hi => step_of_host (nextMove_free hb hi)
  exact ⟨xfer, fun s i rest hb hi => by
    rw [xfer s _ rest hb hi, exec_decodeHt_transactionOf]⟩

/-- Settles O7. -/
theorem idleMachineKeepsItsState : Obligations.IdleMachineKeepsItsState :=
  fun _ hb hi => step_of_idle (nextMove_idle hb hi)

/-- Settles O8: neither an empty list nor such a transaction can happen while BUSY = 1. -/
theorem busyEngineHoldsTransactions : Obligations.BusyEngineHoldsTransactions := by
  intro s hb hi
  refine step_of_engine (nextMove_held hb fun e rest he => ?_)
  rcases hi with hi | ⟨w, rest', hi, hw⟩
  · simp [hi] at he
  · obtain ⟨rfl, -⟩ : HostEvent.xfer w = e ∧ rest' = rest := by simpa [hi] using he
    exact Bool.eq_false_iff.mpr (mt anytime_xfer.mp hw)

/-- Settles O10: both agents have a step, and the free value chooses. -/
theorem busyStatusReadInterleaves : Obligations.BusyStatusReadInterleaves := by
  intro s w rest hb hi hw
  have hm := nextMove_choice hb hi (anytime_xfer.mpr hw)
  split <;> rename_i hc
  · rw [if_pos hc, hostMove, hw] at hm
    exact (step_of_host hm).trans (exec_readStatus _)
  · exact step_of_engine (hm.trans (if_neg hc))

/-- Settles O11: WAIT is a read of STATUS that leaves the list only with BUSY = 0. -/
theorem waitPollsUntilNotBusy : Obligations.WaitPollsUntilNotBusy := by
  intro s rest hi
  refine ⟨fun hb => ?_, fun hb => ?_⟩
  · have hm := (nextMove_free hb hi).trans (hostMove_wait_free hb)
    exact (step_of_host hm).trans (exec_readStatus _)
  · have hm := nextMove_choice hb hi rfl
    split <;> rename_i hc
    · rw [if_pos hc, hostMove_wait_busy (s := hostTurn s) hb, ← hi] at hm
      exact (step_of_host hm).trans (exec_readStatus _)
    · exact step_of_engine (hm.trans (if_neg hc))

/-- Settles O12: with BUSY = 0 reset happens, else the free value chooses. -/
theorem resetEventResetsEverything : Obligations.ResetEventResetsEverything := by
  intro s rest hi
  by_cases hb : s.busy = false
  · rw [if_pos (.inl hb)]
    exact step_of_reset (nextMove_free hb hi)
  · have hm := nextMove_choice (Bool.eq_true_of_not_eq_false hb) hi rfl
    split <;> rename_i hc
    · exact step_of_reset (hm.trans (if_pos (hc.resolve_left hb)))
    · exact step_of_engine (hm.trans (if_neg (mt Or.inr hc)))

end Sys2Proof.Proofs
end

section
/-!
PROOFS. The operands of a command: validation and the tables look at nothing else (00_scope.md R37;
45_host_transfers.md R194, R195).
-/
namespace Sys2Proof.Machine

open Sys2Proof.Safety

section
variable {s t : State}

theorem tableOf_congr (h : SameOperands s t) (x : TableSel) : tableOf t x = tableOf s x := by
  obtain ⟨-, -, -, -, -, htbl, hlen⟩ := h
  cases x <;> simp only [tableOf, htbl, hlen]

theorem keyslot_congr (h : SameOperands s t) (k : KeySlot) : keyslot t k = keyslot s k := by
  obtain ⟨-, -, h1, h2, h3, -, -⟩ := h
  cases k
  · exact h1
  · exact h2
  · exact h3

theorem validatePerm_congr (h : SameOperands s t) (x : TableSel) :
    validatePerm x t = validatePerm x s := by
  have htab := tableOf_congr h x
  obtain ⟨hopa, -, -, -, -, -, hlen⟩ := h
  simp only [validatePerm, htab, hopa, hlen]

theorem validateKsched_congr (h : SameOperands s t) (k : KeySlot) :
    validateKsched k t = validateKsched k s := by
  simp only [validateKsched, keyslot_congr h]

theorem validateFeistel_congr (h : SameOperands s t) : validateFeistel t = validateFeistel s := by
  obtain ⟨hopa, hopb, -⟩ := h
  simp only [validateFeistel, hopa, hopb]

theorem validateDes_congr (h : SameOperands s t) (k : KeySlot) :
    validateDes k t = validateDes k s := by
  simp only [validateDes, keyslot_congr h, h.1]

theorem validateTdes_congr (h : SameOperands s t) (b : Bool) :
    validateTdes b t = validateTdes b s := by
  obtain ⟨hopa, -, h1, h2, h3, -, -⟩ := h
  simp only [validateTdes, hopa, h1, h2, h3]

/-- A command's validation keeps passing while its operands stay the same. -/
theorem passes_congr {w : CmdWord} (h : SameOperands s t) (hp : Passes s w) : Passes t w := by
  cases hp with
  | perm x op sel valid => exact .perm x op sel ((validatePerm_congr h x).trans valid)
  | ksched k op sel valid => exact .ksched k op sel ((validateKsched_congr h k).trans valid)
  | feistel op valid => exact .feistel op ((validateFeistel_congr h).trans valid)
  | des k op sel valid => exact .des k op sel ((validateDes_congr h k).trans valid)
  | tdes op valid => exact .tdes op ((validateTdes_congr h _).trans valid)

end

end Sys2Proof.Machine
end

section
/-!
PROOFS. The engine step of an accepted PERM, KSCHED or FEISTEL command, and the result of PERM bit by
bit (40_permutation_engine.md R100, R110; 00_scope.md R12).
-/
namespace Sys2Proof.Machine

open Sys2Proof.Safety

/-- What PERM leaves in RES: the vector held in OPA, permuted by a table (R110). -/
def permOutput (t : Table) (s : State) : VecReg :=
  vecReg (gather t.length t (held s.opa.bits s.opa.len.toNat))

section
variable {s : State}

/-- The checks of R109 that a valid PERM has passed. -/
theorem validatePerm_eq_none {x : TableSel} : validatePerm x s = none ↔
    ¬ (x = .custom ∧ 64 < s.tblLen.toNat) ∧ s.opa.len.toNat ≤ 64 ∧
      tableFits (tableOf s x) s.opa.len.toNat = true := by
  unfold validatePerm
  split_ifs <;> simp_all

/-- The step of PERM with a validated operand (R110). -/
theorem stepPerm_eq {x : TableSel} (hx : tselTable (cwTsel s.cmd) = some x)
    (hv : validatePerm x s = none) :
    stepPerm s = .next (complete (permOutput (tableOf s x) s) s) := by
  obtain ⟨-, -, hfit⟩ := validatePerm_eq_none.mp hv
  simp only [stepPerm, hx, hv, permResult, permute_eq_ok hfit, Except.map, permOutput]

/-- The step of KSCHED with a key of 64 bits (R128). -/
theorem stepKsched_eq {k : KeySlot} (hk : kselSlot (cwKsel s.cmd) = some k)
    (hlen : (keyslot s k).len = 64) :
    stepKsched s = .next (completeKsched (storeSchedule (ksched (keyslot s k).bits) s)) := by
  simp only [stepKsched, hk, generateSubkeys_eq_ok.mpr ⟨hlen, rfl⟩]

/-- The step of FEISTEL with validated operands (R144). -/
theorem stepFeistel_eq (hv : validateFeistel s = none) :
    stepFeistel s =
      .next (complete (vecReg (feistel (held s.opa.bits 32) (held s.opb.bits 48))) s) := by
  simp only [stepFeistel, hv]

end

/-! ### The bits of a result register -/

theorem vecReg_len_toNat {n : Nat} (v : BitVec n) (h : n ≤ 64) : (vecReg v).len.toNat = n := by
  simp only [vecReg, BitVec.toNat_ofNat]
  omega

/-- The bit at index j of a vector stands in register bit n - 1 - j (R12). -/
theorem vecReg_getLsbD {n j : Nat} (v : BitVec n) (h : n ≤ 64) (hj : j < n) :
    (vecReg v).bits.getLsbD (n - 1 - j) = v.getMsbD j := by
  have hb : n - 1 - j < 64 := by omega
  simp [vecReg, BitVec.getMsbD_eq_getLsbD, hj, hb]

/-- A result register is zero above its vector (R12). -/
theorem vecReg_getLsbD_of_le {n b : Nat} (v : BitVec n) (h : n ≤ b) :
    (vecReg v).bits.getLsbD b = false := by
  simp [vecReg, BitVec.getLsbD_of_ge v b h]

/-- Position p of the vector of length n that a register holds stands in register bit n - p (R12). -/
theorem held_getMsbD {n p : Nat} (bits : Data) (h1 : 1 ≤ p) (h2 : p ≤ n) :
    (held bits n).getMsbD (p - 1) = bits.getLsbD (n - p) := by
  have ha : p - 1 < n := by omega
  have hb : n - 1 - (p - 1) = n - p := by omega
  have hc : n - p < n := by omega
  simp [held, BitVec.getMsbD_eq_getLsbD, ha, hb, hc]

/-- R110 by register bit: entry j of the table names the input bit that RES gets for it. -/
theorem permOutput_getLsbD {t : Table} {s : State} (hm : t.length ≤ 64)
    (ht : ∀ k ∈ t, 1 ≤ k ∧ k ≤ s.opa.len.toNat) {j : Nat} (hj : j < t.length) :
    (permOutput t s).bits.getLsbD (t.length - 1 - j) =
      s.opa.bits.getLsbD (s.opa.len.toNat - t[j]) := by
  obtain ⟨h1, h2⟩ := ht t[j] (List.getElem_mem hj)
  have hget : t.getD j 0 = t[j] := List.getD_eq_getElem _ _ hj
  rw [permOutput, vecReg_getLsbD _ hm hj, getMsbD_gather _ _ hj, hget, held_getMsbD _ h1 h2]

/-! ### A command of one engine step -/

/-- A command whose one engine step ends it. -/
theorem completesIn_one {u t : State} (hu : u.busy = true) (h : engineStep u = .next t)
    (ht : t.busy = false) : CompletesIn 1 u t := by
  refine ⟨by rw [engineRun_succ h, engineRun], ht, fun k hk => ⟨u, ?_, hu⟩⟩
  rw [Nat.lt_one_iff.mp hk, engineRun]

/-- An accepted command leaves the operands as they are (R194). -/
theorem sameOperands_acceptedState (w : CmdWord) (stage : BitVec 2) (blk : Block) (s : State) :
    SameOperands s (acceptedState w stage blk s) := ⟨rfl, rfl, rfl, rfl, rfl, rfl, rfl⟩

/-- What R110 says of a PERM command, from its word and its table. -/
theorem permRuns_of_command {i : Instr} {w : CmdWord} {x : TableSel} {m : State → Nat}
    {t : State → Table} (hi : ∀ s, exec i s = command w (validatePerm x) accept s)
    (hop : cwOp w = 1) (hx : tselTable (cwTsel w) = some x) (ht : ∀ s, tableOf s x = t s)
    (hm : ∀ s, m s ≤ 64 → (t s).length = m s)
    (hc : ∀ s, m s ≤ 64 → ¬ (x = .custom ∧ 64 < s.tblLen.toNat)) : PermRuns i w m t := by
  intro s hb hlen hms hfit
  have hlt : (t s).length = m s := hm s hms
  have hlt64 : (t s).length ≤ 64 := hlt.trans_le hms
  have hv : validatePerm x s = none :=
    validatePerm_eq_none.mpr ⟨hc s hms, hlen, (tableFits_iff _ _).mpr (by rwa [ht s])⟩
  have hstep : engineStep (acceptedState w 0 s.blk s) =
      .next (resultState w (permOutput (t s) s) s) := by
    have same := sameOperands_acceptedState w 0 s.blk s
    have hu := stepPerm_eq (s := acceptedState w 0 s.blk s) hx
      ((validatePerm_congr same x).trans hv)
    rw [tableOf_congr same, ht s] at hu
    exact (engineStep_perm (s := acceptedState w 0 s.blk s) rfl hop rfl).trans hu
  refine ⟨permOutput (t s) s, ?_, completesIn_one rfl hstep rfl, hlt, ?_, ?_, ?_⟩
  · rw [hi]
    exact command_accepted hb hv
  · rw [← hlt]
    exact vecReg_len_toNat _ hlt64
  · intro j hj
    rw [← hlt]
    exact permOutput_getLsbD hlt64 hfit hj
  · intro b hb
    exact vecReg_getLsbD_of_le _ (hlt.trans_le hb)

/-- What R110 says of the PERM command of a ROM table. -/
theorem permRuns_rom {i : Instr} {w : CmdWord} {x : TableSel} {t : Table}
    (hi : ∀ s, exec i s = command w (validatePerm x) accept s) (hop : cwOp w = 1)
    (hx : tselTable (cwTsel w) = some x) (hrom : x ≠ .custom) (ht : ∀ s, tableOf s x = t) :
    PermRuns i w (fun _ => t.length) (fun _ => t) :=
  permRuns_of_command hi hop hx ht (fun _ _ => rfl) fun _ _ h => hrom h.1

end Sys2Proof.Machine

namespace Sys2Proof.Proofs

open Sys2Proof.Machine Sys2Proof.Safety

/-- Settles O27: the ROM tables have their lengths, the custom table the length in TBL_LEN. -/
theorem permResult : Obligations.PermResult := by
  refine ⟨permRuns_of_command (x := .custom) (fun _ => rfl) rfl rfl (fun _ => rfl) ?_ ?_,
    permRuns_rom (x := .ip) (fun _ => rfl) rfl rfl nofun fun _ => rfl,
    permRuns_rom (x := .fp) (fun _ => rfl) rfl rfl nofun fun _ => rfl,
    permRuns_rom (x := .e) (fun _ => rfl) rfl rfl nofun fun _ => rfl,
    permRuns_rom (x := .p) (fun _ => rfl) rfl rfl nofun fun _ => rfl,
    permRuns_rom (x := .pc1) (fun _ => rfl) rfl rfl nofun fun _ => rfl,
    permRuns_rom (x := .pc2) (fun _ => rfl) rfl rfl nofun fun _ => rfl⟩
  · intro s hm
    simpa using hm
  · rintro s hm ⟨-, h⟩
    omega

end Sys2Proof.Proofs
end

section
/-!
PROOFS. A command in progress always has an engine step, which ends the command or leaves one step
fewer to go (00_scope.md R19; 43_des_engine.md R159 to R163; 44_tdes_composer.md R179).
-/
namespace Sys2Proof.Safety

open Sys2Proof.Machine

/-- A command in progress, as the invariant knows it (`Inv.inProgress`). -/
structure InProgress (s : State) : Prop where
  busy : s.busy = true
  noError : s.err = .none
  noResult : s.resValid = false
  passes : Passes s s.cmd
  place : PlaceValid s

theorem Inv.toInProgress {s : State} (h : Inv s) (hb : s.busy = true) : InProgress s := by
  obtain ⟨he, hr, hp, hv⟩ := h.inProgress hb
  exact ⟨hb, he, hr, hp, hv⟩

/-- What every engine step but the last of a command leaves as it was. -/
structure SameCommand (s t : State) : Prop where
  operands : SameOperands s t
  cmd : t.cmd = s.cmd
  busy : t.busy = s.busy
  err : t.err = s.err
  resValid : t.resValid = s.resValid

/-- Until a command is over its steps change nothing but the fields named here (R159 to R163,
R179). -/
theorem sameCommand_update (s : State) (rk : Vector RoundKey 16) (rkValid : Bool) (phase : Phase)
    (round : BitVec 5) (stage : BitVec 2) (l r : Half) (blk : Block) :
    SameCommand s { s with
      rk := rk, rkValid := rkValid, phase := phase, round := round, stage := stage
      l := l, r := r, blk := blk } :=
  ⟨⟨rfl, rfl, rfl, rfl, rfl, rfl, rfl⟩, rfl, rfl, rfl, rfl⟩

theorem InProgress.congr {s t : State} (h : InProgress s) (hs : SameCommand s t)
    (hp : PlaceValid t) : InProgress t where
  busy := hs.busy.trans h.busy
  noError := hs.err.trans h.noError
  noResult := hs.resValid.trans h.noResult
  passes := hs.cmd ▸ passes_congr hs.operands h.passes
  place := hp

/-! ### The place of a DES or TDES command -/

theorem nstage_des {w : CmdWord} (h : cwOp w = 4) : nstage w = 1 := by simp [nstage, h]

theorem nstage_tdes {w : CmdWord} (h : cwOp w = 5) : nstage w = 3 := if_pos h

/-- A DES or TDES command stands in one of its stages, and in FINAL only between two of them (R159,
R179). -/
theorem placeValid_cipher_iff {s : State} (hc : IsCipher s.cmd) : PlaceValid s ↔
    1 ≤ s.stage.toNat ∧ s.stage.toNat ≤ (nstage s.cmd).toNat ∧
      (s.phase = .final → s.stage ≠ nstage s.cmd) ∧ RoundOfPhase s := by
  rcases hc with ho | ho
  · rw [nstage_des ho]
    constructor
    · intro h
      obtain ⟨hs, hf⟩ := h.des ho
      exact ⟨by simp [hs], by simp [hs], fun hp => absurd hp hf, h.round⟩
    · rintro ⟨h1, h2, hf, hr⟩
      have hs : s.stage = 1 := BitVec.eq_of_toNat_eq (le_antisymm h2 h1)
      exact ⟨fun hn => absurd (.inl ho) hn, fun _ => ⟨hs, fun hp => hf hp hs⟩,
        fun h5 => by simp [ho] at h5, hr⟩
  · rw [nstage_tdes ho]
    constructor
    · intro h
      obtain ⟨hs, hf⟩ := h.tdes ho
      exact ⟨Nat.pos_of_ne_zero fun h0 => hs (BitVec.eq_of_toNat_eq h0),
        Nat.le_of_lt_succ s.stage.isLt, hf, h.round⟩
    · rintro ⟨h1, -, hf, hr⟩
      exact ⟨fun hn => absurd (.inr ho) hn, fun h4 => by simp [ho] at h4,
        fun _ => ⟨fun hs => by simp [hs] at h1, hf⟩, hr⟩

/-! ### The steps that are left -/

/-- The engine steps to the end of the stage (R160 to R163). -/
def stepsInStage (s : State) : Nat :=
  match s.phase with
  | .idle => 0
  | .init => 19
  | .permuted => 18
  | .round => 18 - s.round.toNat
  | .swapped => 1
  | .final => 0

/-- The engine steps to the end of the command: one for PERM, KSCHED and FEISTEL (R110, R128, R144),
else those of this stage and twenty for each stage after it (R179). -/
def stepsLeft (s : State) : Nat :=
  if IsCipher s.cmd then stepsInStage s + 20 * ((nstage s.cmd).toNat - s.stage.toNat) else 1

theorem stepsLeft_cipher {s : State} (hc : IsCipher s.cmd) :
    stepsLeft s = stepsInStage s + 20 * ((nstage s.cmd).toNat - s.stage.toNat) := if_pos hc

theorem stepsInStage_le (s : State) : stepsInStage s ≤ 19 := by
  unfold stepsInStage
  split <;> omega

theorem nstage_le (w : CmdWord) : (nstage w).toNat ≤ 3 := Nat.le_of_lt_succ (nstage w).isLt

/-- Nineteen steps in the first of three stages and twenty for each of the others (R182). -/
theorem stepsLeft_le {s : State} (hp : PlaceValid s) : stepsLeft s ≤ 59 := by
  by_cases hc : IsCipher s.cmd
  · obtain ⟨h1, -⟩ := (placeValid_cipher_iff hc).mp hp
    have := stepsInStage_le s
    have := nstage_le s.cmd
    rw [stepsLeft_cipher hc]
    omega
  · simp [stepsLeft, hc]

/-- A command that is over, without an error. -/
structure Completed (s : State) : Prop where
  notBusy : s.busy = false
  final : s.phase = .final
  noError : s.err = .none

/-- What an engine step of a command in progress does: it ends the command, or leaves it in progress
with one step fewer to go. -/
def Advances (s t : State) : Prop :=
  (Completed t ∧ stepsLeft s = 1) ∨ (InProgress t ∧ stepsLeft s = stepsLeft t + 1)

/-! ### The steps of a stage -/

/-- A step inside a stage advances the command. -/
theorem advances_of_sameStage {s t : State} (h : InProgress s) (hc : IsCipher s.cmd)
    (same : SameCommand s t) (hst : t.stage = s.stage)
    (hf : t.phase = .final → s.stage ≠ nstage s.cmd) (hr : RoundOfPhase t)
    (hn : stepsInStage s = stepsInStage t + 1) : Advances s t := by
  obtain ⟨h1, h2, -, -⟩ := (placeValid_cipher_iff hc).mp h.place
  have hct : IsCipher t.cmd := same.cmd ▸ hc
  refine .inr ⟨h.congr same ((placeValid_cipher_iff hct).mpr ?_), ?_⟩
  · rw [same.cmd, hst]
    exact ⟨h1, h2, hf, hr⟩
  · rw [stepsLeft_cipher hc, stepsLeft_cipher hct, same.cmd, hst, hn]
    omega

/-- The operands that a valid TDES command has (R178). -/
theorem validateTdes_eq_none {s : State} {b : Bool} : validateTdes b s = none ↔
    s.opa.len = 64 ∧ s.key1.len = 64 ∧ s.key2.len = 64 ∧ (b = true → s.key3.len = 64) := by
  unfold validateTdes
  split_ifs <;> simp_all

theorem validateDes_eq_none {s : State} {k : KeySlot} : validateDes k s = none ↔
    s.opa.len = 64 ∧ (keyslot s k).len = 64 := by
  unfold validateDes
  split_ifs <;> simp_all

theorem validateKsched_eq_none {s : State} {k : KeySlot} : validateKsched k s = none ↔
    (keyslot s k).len = 64 := by
  simp [validateKsched]

/-- The key slot of a TDES stage is KEY1, KEY2, or in three-key mode KEY3 (R177). -/
theorem tdesStageKey_cases (w : CmdWord) (st : BitVec 2) :
    tdesStageKey w st = .k1 ∨ tdesStageKey w st = .k2 ∨
      (cwK3en w = 1 ∧ tdesStageKey w st = .k3) := by
  simp only [tdesStageKey]
  cases dirOf (cwDir w) <;> split_ifs <;> simp_all

/-- Every stage of a DES or TDES command in progress has a key of 64 bits (R158, R178). -/
theorem InProgress.stageKey {s : State} (h : InProgress s) (hc : IsCipher s.cmd) :
    ∃ k, stageKey s.cmd s.stage = some k ∧ (keyslot s k).len = 64 := by
  cases h.passes with
  | perm x op => simp [IsCipher, op] at hc
  | ksched k op => simp [IsCipher, op] at hc
  | feistel op => simp [IsCipher, op] at hc
  | des k op sel valid =>
    exact ⟨k, by simp [Machine.stageKey, op, sel], (validateDes_eq_none.mp valid).2⟩
  | tdes op valid =>
    obtain ⟨-, h1, h2, h3⟩ := validateTdes_eq_none.mp valid
    refine ⟨tdesStageKey s.cmd s.stage, by simp [Machine.stageKey, op], ?_⟩
    rcases tdesStageKey_cases s.cmd s.stage with hk | hk | ⟨hk3, hk⟩ <;> rw [hk]
    · exact h1
    · exact h2
    · exact h3 (decide_eq_true hk3)

/-- Init → Permuted with a key of 64 bits (R160). -/
theorem stepPermuted_eq {s : State} {k : KeySlot} (hk : stageKey s.cmd s.stage = some k)
    (hlen : (keyslot s k).len = 64) : stepPermuted s =
      .next (loadHalves (desStart s.blk) (storeSchedule (ksched (keyslot s k).bits) s)) := by
  simp only [stepPermuted, hk, generateSubkeys_eq_ok.mpr ⟨hlen, rfl⟩]

/-- RK holds the round key of each of the sixteen rounds, in both directions (R27, R156). -/
theorem rkAt_rkIndex (rk : Vector RoundKey 16) (d : Dir) {i : Nat} (h1 : 1 ≤ i) (h2 : i ≤ 16) :
    ∃ k, rkAt rk (rkIndex d i) = some k := by
  have hbound : rkIndex d i ≠ 0 ∧ rkIndex d i - 1 < 16 := by
    cases d <;> simp only [rkIndex] <;> omega
  exact ⟨rk[rkIndex d i - 1], by simp [rkAt, hbound]⟩

/-- A round below the sixteenth is followed by the next one (R161). -/
theorem stepRound_eq {s : State} (h : s.round.toNat < 16) : ∃ k, stepRound s =
    .next (roundHalves (desRound k (s.l, s.r)) (s.round.toNat + 1) s) := by
  obtain ⟨k, hk⟩ := rkAt_rkIndex s.rk (stageDir s.cmd s.stage) (i := s.round.toNat + 1)
    (by omega) (by omega)
  exact ⟨k, by simp only [stepRound, hk]⟩

/-- The step to the next round advances the command (R161). -/
theorem advances_roundHalves {s : State} (h : InProgress s) (hc : IsCipher s.cmd)
    (hlt : s.round.toNat < 16) (hn : stepsInStage s = 18 - s.round.toNat) (x : Half × Half) :
    Advances s (roundHalves x (s.round.toNat + 1) s) := by
  have hround : (roundHalves x (s.round.toNat + 1) s).round.toNat = s.round.toNat + 1 := by
    rw [roundHalves_round, BitVec.toNat_ofNat]
    omega
  refine advances_of_sameStage h hc (sameCommand_update ..) rfl
    nofun ?_ ?_
  · simp only [RoundOfPhase, roundHalves_phase, hround]
    omega
  · rw [hn]
    simp only [stepsInStage, roundHalves_phase, hround]
    omega

/-- The step to the next stage advances a TDES command (R179). -/
theorem advances_enterStage {s : State} (h : InProgress s) (ho : cwOp s.cmd = 5)
    (hp : s.phase = .final) (hne : s.stage ≠ 3) : Advances s (enterStage s) := by
  have hlt : s.stage.toNat < 3 :=
    lt_of_le_of_ne (Nat.le_of_lt_succ s.stage.isLt) fun h3 => hne (BitVec.eq_of_toNat_eq h3)
  have hst : (enterStage s).stage.toNat = s.stage.toNat + 1 := by
    rw [enterStage_stage, BitVec.toNat_add]
    exact Nat.mod_eq_of_lt (Nat.succ_lt_succ hlt)
  have hc : IsCipher s.cmd := .inr ho
  have hct : IsCipher (enterStage s).cmd := hc
  have hn : (nstage s.cmd).toNat = 3 := by rw [nstage_tdes ho]; rfl
  refine .inr ⟨h.congr (sameCommand_update ..)
    ((placeValid_cipher_iff hct).mpr ?_), ?_⟩
  · rw [hst, enterStage_cmd, hn]
    exact ⟨Nat.le_add_left 1 _, hlt, nofun, rfl⟩
  · rw [stepsLeft_cipher hc, stepsLeft_cipher hct, hst, enterStage_cmd, hn]
    simp only [stepsInStage, hp, enterStage_phase]
    omega

/-- Every step of a DES or TDES command in progress advances it: one case for each phase (R160 to
R163, R179). -/
theorem stepStage_advances {s : State} (h : InProgress s) (hc : IsCipher s.cmd) :
    ∃ t, stepStage s = .next t ∧ Advances s t := by
  obtain ⟨h1, h2, hf, hr⟩ := (placeValid_cipher_iff hc).mp h.place
  cases hp : s.phase <;> simp only [stepStage, RoundOfPhase, hp] at hr ⊢
  case init =>
    obtain ⟨k, hk, hlen⟩ := h.stageKey hc
    refine ⟨_, stepPermuted_eq hk hlen, ?_⟩
    exact advances_of_sameStage h hc (sameCommand_update ..) rfl
      nofun hr (by simp [stepsInStage, hp])
  case permuted =>
    have hlt : s.round.toNat < 16 := by simp [hr]
    obtain ⟨k, hk⟩ := stepRound_eq hlt
    exact ⟨_, hk, advances_roundHalves h hc hlt (by simp [stepsInStage, hp, hr]) _⟩
  case round =>
    by_cases hlt : s.round.toNat < 16
    · obtain ⟨k, hk⟩ := stepRound_eq hlt
      rw [if_pos hlt]
      exact ⟨_, hk, advances_roundHalves h hc hlt (by simp [stepsInStage, hp]) _⟩
    · have h16 : s.round = 16 := BitVec.eq_of_toNat_eq (le_antisymm hr.2 (not_lt.mp hlt))
      rw [if_neg hlt, if_pos h16]
      refine ⟨_, rfl, ?_⟩
      exact advances_of_sameStage h hc (sameCommand_update ..) rfl
        nofun h16 (by simp [stepsInStage, hp, h16])
  case swapped =>
    by_cases hlast : s.stage = nstage s.cmd
    · refine ⟨_, if_pos hlast, .inl ⟨⟨rfl, rfl, h.noError⟩, ?_⟩⟩
      simp [stepsLeft_cipher hc, stepsInStage, hp, hlast]
    · refine ⟨_, if_neg hlast, ?_⟩
      exact advances_of_sameStage h hc (sameCommand_update ..) rfl
        (fun _ => hlast) hr (by simp [stepsInStage, hp])
  case final =>
    rcases hc with ho | ho
    · rw [nstage_des ho] at h2 hf
      exact absurd (BitVec.eq_of_toNat_eq (le_antisymm h2 h1)) (hf hp)
    · rw [nstage_tdes ho] at hf
      rw [if_pos ho]
      exact ⟨_, if_neg (hf hp), advances_enterStage h ho hp (hf hp)⟩

/-! ### Every command in progress -/

/-- The one step of a command that is not DES or TDES completes it. -/
theorem advances_of_single {s t : State} (h : InProgress s) (hc : ¬ IsCipher s.cmd)
    (hb : t.busy = false) (hp : t.phase = .final) (he : t.err = s.err) : Advances s t :=
  .inl ⟨⟨hb, hp, he.trans h.noError⟩, if_neg hc⟩

/-- R19, R212: a command in progress has an engine step, and it advances the command. -/
theorem engineStep_advances {s : State} (h : InProgress s) :
    ∃ t, engineStep s = .next t ∧ Advances s t := by
  by_cases hc : IsCipher s.cmd
  · rw [engineStep_stage h.busy hc]
    exact stepStage_advances h hc
  · obtain ⟨-, hi, -⟩ := h.place.single hc
    cases h.passes with
    | perm x op sel valid =>
      rw [engineStep_perm h.busy op hi]
      exact ⟨_, stepPerm_eq sel valid, advances_of_single h hc rfl rfl rfl⟩
    | ksched k op sel valid =>
      rw [engineStep_ksched h.busy op hi]
      exact ⟨_, stepKsched_eq sel (validateKsched_eq_none.mp valid),
        advances_of_single h hc rfl rfl rfl⟩
    | feistel op valid =>
      rw [engineStep_feistel h.busy op hi]
      exact ⟨_, stepFeistel_eq valid, advances_of_single h hc rfl rfl rfl⟩
    | des k op => exact absurd (.inl op) hc
    | tdes op => exact absurd (.inr op) hc

/-- R19: a command in progress is over after exactly the steps it has left. -/
theorem engineRun_stepsLeft {s : State} (h : InProgress s) :
    ∃ t, engineRun (stepsLeft s) s = .next t ∧ Completed t := by
  induction hn : stepsLeft s generalizing s with
  | zero =>
    obtain ⟨t, -, ⟨-, h1⟩ | ⟨-, h1⟩⟩ := engineStep_advances h <;> omega
  | succ n ih =>
    obtain ⟨t, ht, ⟨hdone, h1⟩ | ⟨hprog, h1⟩⟩ := engineStep_advances h
    · have h0 : n = 0 := by omega
      exact ⟨t, by rw [h0, engineRun_succ ht, engineRun], hdone⟩
    · rw [engineRun_succ ht]
      exact ih hprog (by omega)

end Sys2Proof.Safety

namespace Sys2Proof.Proofs

open Sys2Proof.Machine Sys2Proof.Safety

/-- Settles O43: the invariant of a busy state says that a command is in progress. -/
theorem acceptedCommandNeverStops : Obligations.AcceptedCommandNeverStops := by
  intro s h hb
  obtain ⟨t, ht, -⟩ := engineStep_advances (h.toInProgress hb)
  exact ⟨t, ht⟩

/-- Settles O44: the command is over after the steps it has left, at most fifty-nine. -/
theorem everyCommandTerminates : Obligations.EveryCommandTerminates := by
  intro s h hb
  have hprog := h.toInProgress hb
  obtain ⟨t, ht, hdone⟩ := engineRun_stepsLeft hprog
  exact ⟨stepsLeft s, t, stepsLeft_le hprog.place, ht, hdone.notBusy, hdone.final, hdone.noError⟩

end Sys2Proof.Proofs
end

section
/-!
PROOFS. The rules by which the engine steps, each with the state it leads to
(40_permutation_engine.md R110; 41_key_schedule.md R128; 42_feistel.md R144; 43_des_engine.md R160 to R163;
44_tdes_composer.md R179).
-/
namespace Sys2Proof.Machine

open Sys2Proof.Safety

/-- The rules of the engine: what each asks of the state s of a busy engine, and where it leads. -/
inductive EngineRule (s : State) : State → Prop
  | perm (x : TableSel) (op : cwOp s.cmd = 1) (init : s.phase = .init)
      (sel : tselTable (cwTsel s.cmd) = some x) (valid : validatePerm x s = none) :
      EngineRule s (complete (permOutput (tableOf s x) s) s)
  | ksched (k : KeySlot) (op : cwOp s.cmd = 2) (init : s.phase = .init)
      (sel : kselSlot (cwKsel s.cmd) = some k) (len : (keyslot s k).len = 64) :
      EngineRule s (completeKsched (storeSchedule (ksched (keyslot s k).bits) s))
  | feistel (op : cwOp s.cmd = 3) (init : s.phase = .init) (valid : validateFeistel s = none) :
      EngineRule s (complete (vecReg (feistel (held s.opa.bits 32) (held s.opb.bits 48))) s)
  | permuted (k : KeySlot) (cipher : IsCipher s.cmd) (init : s.phase = .init)
      (key : stageKey s.cmd s.stage = some k) (len : (keyslot s k).len = 64) :
      EngineRule s (loadHalves (desStart s.blk) (storeSchedule (ksched (keyslot s k).bits) s))
  | round (k : RoundKey) (cipher : IsCipher s.cmd)
      (place : s.phase = .permuted ∨ s.phase = .round ∧ s.round.toNat < 16)
      (key : rkAt s.rk (rkIndex (stageDir s.cmd s.stage) (s.round.toNat + 1)) = some k) :
      EngineRule s (roundHalves (desRound k (s.l, s.r)) (s.round.toNat + 1) s)
  | swapped (cipher : IsCipher s.cmd) (place : s.phase = .round) (last : s.round = 16) :
      EngineRule s (formPreOutput s)
  | output (cipher : IsCipher s.cmd) (place : s.phase = .swapped) (more : s.stage ≠ nstage s.cmd) :
      EngineRule s (storeOutput (gather 64 fpTable s.blk) s)
  | result (cipher : IsCipher s.cmd) (place : s.phase = .swapped) (last : s.stage = nstage s.cmd) :
      EngineRule s (complete (vecReg (gather 64 fpTable s.blk))
        (storeOutput (gather 64 fpTable s.blk) s))
  | nextStage (op : cwOp s.cmd = 5) (final : s.phase = .final) (more : s.stage ≠ 3) :
      EngineRule s (enterStage s)

section
variable {s t : State}

/-- Every step of a stage is by a rule. -/
theorem engineRule_of_stepStage (hc : IsCipher s.cmd) (h : stepStage s = .next t) :
    EngineRule s t := by
  rcases stepStage_cases h with ⟨hp, h⟩ | ⟨hp, h⟩ | ⟨hp, hr, h⟩ | ⟨hp, hr, rfl⟩ | ⟨hp, h⟩ |
    ⟨hp, ho, hs, rfl⟩
  · obtain ⟨k, hk, hlen, rfl⟩ := stepPermuted_cases h
    exact .permuted k hc hp hk hlen
  · obtain ⟨k, hk, rfl⟩ := stepRound_cases h
    exact .round k hc (.inl hp) hk
  · obtain ⟨k, hk, rfl⟩ := stepRound_cases h
    exact .round k hc (.inr ⟨hp, hr⟩) hk
  · exact .swapped hc hp hr
  · obtain ⟨hs, rfl⟩ | ⟨hs, rfl⟩ := stepFinal_cases h
    · exact .result hc hp hs
    · exact .output hc hp hs
  · exact .nextStage ho hp hs

/-- R17: the engine steps when BUSY = 1, by one of its rules. -/
theorem engineStep_iff : engineStep s = .next t ↔ s.busy = true ∧ EngineRule s t := by
  constructor
  · intro h
    obtain ⟨hb, h⟩ := engineStep_cases h
    refine ⟨hb, ?_⟩
    rcases h with ⟨ho, hp, h⟩ | ⟨ho, hp, h⟩ | ⟨ho, hp, h⟩ | ⟨hc, h⟩
    · obtain ⟨x, hx, hv, rfl⟩ := stepPerm_cases h
      exact .perm x ho hp hx hv
    · obtain ⟨k, hk, hlen, rfl⟩ := stepKsched_cases h
      exact .ksched k ho hp hk hlen
    · obtain ⟨hv, rfl⟩ := stepFeistel_cases h
      exact .feistel ho hp hv
    · exact engineRule_of_stepStage hc h
  · rintro ⟨hb, h⟩
    cases h with
    | perm x op init sel valid => rw [engineStep_perm hb op init, stepPerm_eq sel valid]
    | ksched k op init sel len => rw [engineStep_ksched hb op init, stepKsched_eq sel len]
    | feistel op init valid => rw [engineStep_feistel hb op init, stepFeistel_eq valid]
    | permuted k cipher init key len =>
      rw [engineStep_stage hb cipher]
      simp only [stepStage, init, stepPermuted_eq key len]
    | round k cipher place key =>
      rw [engineStep_stage hb cipher]
      obtain hp | ⟨hp, hr⟩ := place
      · simp only [stepStage, hp, stepRound, key]
      · simp only [stepStage, hp, hr, if_true, stepRound, key]
    | swapped cipher place last =>
      rw [engineStep_stage hb cipher]
      simp [stepStage, place, last, stepSwapped]
    | output cipher place more =>
      rw [engineStep_stage hb cipher]
      simp only [stepStage, place, stepFinal, if_neg more]
    | result cipher place last =>
      rw [engineStep_stage hb cipher]
      simp only [stepStage, place, stepFinal, if_pos last]
    | nextStage op final more =>
      rw [engineStep_stage hb (.inr op)]
      simp only [stepStage, final, if_pos op, stepNextStage, if_neg more]

/-! ### What the rules leave as it was -/

/-- R195: no rule writes an operand register. -/
theorem EngineRule.sameOperands (h : EngineRule s t) : SameOperands s t := by
  cases h <;> exact ⟨rfl, rfl, rfl, rfl, rfl, rfl, rfl⟩

theorem EngineRule.cmd_eq (h : EngineRule s t) : t.cmd = s.cmd := by
  cases h <;> rfl

/-- A command ends where it stands: with its ROUND and STAGE. -/
theorem EngineRule.place_of_over (h : EngineRule s t) (hb : s.busy = true) (ht : t.busy = false) :
    t.round = s.round ∧ t.stage = s.stage := by
  cases h with
  | round | swapped | output | permuted | nextStage =>
    exact absurd (ht.symm.trans hb) Bool.false_ne_true
  | perm | ksched | feistel | result => exact ⟨rfl, rfl⟩

/-- R27: the rules that write RK are KSCHED's and Init → Permuted. -/
theorem EngineRule.rk_cases (h : EngineRule s t) :
    (t.rk = s.rk ∧ t.rkValid = s.rkValid) ∨
    (s.phase = .init ∧ (cwOp s.cmd = 2 ∨ IsCipher s.cmd) ∧ t.rkValid = true) := by
  cases h with
  | ksched k op init => exact .inr ⟨init, .inl op, rfl⟩
  | permuted k cipher init => exact .inr ⟨init, .inr cipher, rfl⟩
  | _ => exact .inl ⟨rfl, rfl⟩

end

/-! ### RES -/

/-- RES holds a vector of at most 64 bits and nothing above it (R38 (e)). -/
def ResFits (v : VecReg) : Prop := v.len.toNat ≤ 64 ∧ v.bits.toNat < 2 ^ v.len.toNat

/-- A vector of at most 64 bits fits a register (R12). -/
theorem resFits_vecReg {n : Nat} (v : BitVec n) (h : n ≤ 64) : ResFits (vecReg v) := by
  rw [ResFits, vecReg_len_toNat v h]
  exact ⟨h, (BitVec.toNat_setWidth 64 v).trans_lt ((Nat.mod_le ..).trans_lt v.isLt)⟩

/-- A table that passes the validation of PERM has at most 64 entries (R109). -/
theorem length_tableOf_le {x : TableSel} {s : State} (h : validatePerm x s = none) :
    (tableOf s x).length ≤ 64 := by
  obtain ⟨hlen, -⟩ := validatePerm_eq_none.mp h
  cases x with
  | custom => simp only [tableOf, List.length_map, List.length_take, Vector.length_toList]; omega
  | _ => exact Nat.le_of_ble_eq_true rfl

/-- R38 (e): what a rule leaves in RES fits it. -/
theorem EngineRule.resFits {s t : State} (h : EngineRule s t) (hs : ResFits s.res) :
    ResFits t.res := by
  cases h with
  | perm x op init sel valid => exact resFits_vecReg _ (length_tableOf_le valid)
  | feistel => exact resFits_vecReg _ (by decide)
  | result => exact resFits_vecReg _ le_rfl
  | _ => exact hs

end Sys2Proof.Machine
end

section
/-!
PROOFS. Every step keeps the invariant, so every reachable state meets it (10_state.md R38, R39).
-/
namespace Sys2Proof.Safety

open Sys2Proof.Machine

/-- The rules of R38 and the invariant look at nothing of the host's side. -/
theorem Inv.withHostSide {s : State} (h : Inv s) (inputs : List HostEvent)
    (received : List Response) (turn polls : Nat) :
    Inv { s with inputs := inputs, received := received, turn := turn, polls := polls } where
  rules :=
    { idleOrFinal := h.rules.idleOrFinal
      idleIsClear := h.rules.idleIsClear
      validResult := h.rules.validResult
      errorIsOver := h.rules.errorIsOver
      resFits := h.rules.resFits
      roundBound := h.rules.roundBound
      stageOfCipher := h.rules.stageOfCipher
      operandsTidy := h.rules.operandsTidy }
  inProgress hb := by
    obtain ⟨he, hr, hp, hv⟩ := h.inProgress hb
    exact ⟨he, hr, passes_congr (s := s) ⟨rfl, rfl, rfl, rfl, rfl, rfl, rfl⟩ hp,
      ⟨hv.single, hv.des, hv.tdes, hv.round⟩⟩

/-- With BUSY = 0 the invariant is R38's rules. -/
theorem StateRules.toInv {s : State} (h : StateRules s) (hb : s.busy = false) : Inv s :=
  ⟨h, fun ht => absurd (hb.symm.trans ht) Bool.false_ne_true⟩

/-! ### Reset and the host's transactions -/

/-- R39: a register of length 0 that holds 0 is tidy. -/
theorem tidy_zero : Tidy .zero := fun _ => by decide

theorem inv_reset : Inv State.reset := by
  refine StateRules.toInv ?_ rfl
  exact
    { idleOrFinal := fun _ => .inl rfl
      idleIsClear := fun _ => ⟨rfl, rfl, rfl⟩
      validResult := nofun
      errorIsOver := fun h => absurd rfl h
      resFits := by decide
      roundBound := by decide
      stageOfCipher := by decide
      operandsTidy := ⟨tidy_zero, tidy_zero, tidy_zero, tidy_zero, tidy_zero⟩ }

/-- R38 (h): what a WR stores is tidy (R192). -/
theorem tidy_vecOf (len : LenTag) (data : Data) : Tidy (vecOf len data) := by
  intro h
  rw [vecOf_len] at h ⊢
  exact vecOf_lt data h

/-- A write of a register other than CMD leaves the operands tidy. -/
theorem operandsTidy_storeReg {s : State} (h : StateRules s) (len : LenTag) (data : Data)
    (x : Reg) : Tidy (storeReg len data s x).opa ∧ Tidy (storeReg len data s x).opb ∧
      Tidy (storeReg len data s x).key1 ∧ Tidy (storeReg len data s x).key2 ∧
      Tidy (storeReg len data s x).key3 := by
  obtain ⟨h1, h2, h3, h4, h5⟩ := h.operandsTidy
  have hv := tidy_vecOf len data
  cases x with
  | opa => exact ⟨hv, h2, h3, h4, h5⟩
  | opb => exact ⟨h1, hv, h3, h4, h5⟩
  | key1 => exact ⟨h1, h2, hv, h4, h5⟩
  | key2 => exact ⟨h1, h2, h3, hv, h5⟩
  | key3 => exact ⟨h1, h2, h3, h4, hv⟩
  | _ => exact ⟨h1, h2, h3, h4, h5⟩

/-- R38: a write of a register other than CMD keeps the rules (R191, R192, R199). -/
theorem StateRules.storeReg {s : State} (h : StateRules s) (len : LenTag) (data : Data) (x : Reg) :
    StateRules (storeReg len data s x) := by
  have ht := operandsTidy_storeReg h len data x
  rw [storeReg_frame] at ht ⊢
  exact ⟨h.idleOrFinal, h.idleIsClear, h.validResult, h.errorIsOver, h.resFits, h.roundBound,
    h.stageOfCipher, ht⟩

/-! ### Commands -/

/-- R38: a refused command leaves a state of the rules (R194, R213). -/
theorem StateRules.refused {s : State} (h : StateRules s) (w : CmdWord) (e : ErrCode) :
    StateRules (raise e (takeWord w s)) where
  idleOrFinal _ := .inl rfl
  idleIsClear _ := ⟨rfl, rfl, rfl⟩
  validResult := nofun
  errorIsOver _ := ⟨rfl, rfl, rfl⟩
  resFits := h.resFits
  roundBound := by simp
  stageOfCipher := by simp
  operandsTidy := h.operandsTidy

/-- A command in progress is past IDLE (R194). -/
theorem InProgress.not_idle {s : State} (h : InProgress s) : s.phase ≠ .idle := fun hp => by
  have hr := h.place.round
  simp [RoundOfPhase, hp] at hr

/-- The rules of R38 in a state whose command has been accepted or is in progress. -/
theorem InProgress.stateRules {s : State} (h : InProgress s) (hres : ResFits s.res)
    (htidy : Tidy s.opa ∧ Tidy s.opb ∧ Tidy s.key1 ∧ Tidy s.key2 ∧ Tidy s.key3) :
    StateRules s := by
  have hidle := h.not_idle
  have hr := h.place.round
  exact
    { idleOrFinal := fun hb => absurd (hb.symm.trans h.busy) Bool.false_ne_true
      idleIsClear := fun hp => absurd hp hidle
      validResult := fun hv => absurd (h.noResult.symm.trans hv) Bool.false_ne_true
      errorIsOver := fun he => absurd h.noError he
      resFits := hres
      roundBound := by
        cases hp : s.phase <;> simp only [RoundOfPhase, hp] at hr
        case round => exact hr.2
        all_goals simp [hr]
      stageOfCipher := by
        by_cases hc : IsCipher s.cmd
        · obtain ⟨h1, -⟩ := (placeValid_cipher_iff hc).mp h.place
          exact ⟨fun _ => ⟨hc, hidle⟩, fun _ h0 => by simp [h0] at h1⟩
        · exact ⟨fun hs => absurd (h.place.single hc).1 hs, fun hs => absurd hs.1 hc⟩
      operandsTidy := htidy }

theorem InProgress.toInv {s : State} (h : InProgress s) (hs : StateRules s) : Inv s :=
  ⟨hs, fun _ => ⟨h.noError, h.noResult, h.passes, h.place⟩⟩

/-- An accepted PERM, KSCHED or FEISTEL command is in progress (R194). -/
theorem inProgress_accept {s : State} {w : CmdWord} (hp : Passes s w) (hc : ¬ IsCipher w) :
    InProgress (accept (takeWord w s)) where
  busy := rfl
  noError := rfl
  noResult := rfl
  passes := passes_congr (s := s) (w := w) ⟨rfl, rfl, rfl, rfl, rfl, rfl, rfl⟩ hp
  place :=
    { single := fun _ => ⟨rfl, rfl, rfl⟩
      des := fun h => absurd (.inl h) hc
      tdes := fun h => absurd (.inr h) hc
      round := rfl }

/-- An accepted DES or TDES command is in progress (R194). -/
theorem inProgress_acceptBlock {s : State} {w : CmdWord} (hp : Passes s w) (hc : IsCipher w) :
    InProgress (acceptBlock (takeWord w s)) where
  busy := rfl
  noError := rfl
  noResult := rfl
  passes := passes_congr (s := s) (w := w) ⟨rfl, rfl, rfl, rfl, rfl, rfl, rfl⟩ hp
  place :=
    { single := fun h => absurd hc h
      des := fun _ => ⟨rfl, nofun⟩
      tdes := fun _ => ⟨by simp, nofun⟩
      round := rfl }

/-- R38: a command that is written with BUSY = 0 keeps the invariant (R194, R213). -/
theorem Inv.commandDoes {s t : State} {w : CmdWord} (h : Inv s) (hd : CommandDoes w s t) :
    Inv t := by
  obtain ⟨-, rfl⟩ | ⟨-, e, -, rfl⟩ | ⟨-, hp, hc, rfl⟩ | ⟨-, hp, hc, rfl⟩ := hd
  · exact h
  · exact (h.rules.refused w e).toInv rfl
  · have hprog := inProgress_accept hp hc
    exact hprog.toInv (hprog.stateRules h.rules.resFits h.rules.operandsTidy)
  · have hprog := inProgress_acceptBlock hp hc
    exact hprog.toInv (hprog.stateRules h.rules.resFits h.rules.operandsTidy)

/-- R38: every instruction keeps the invariant. -/
theorem Inv.exec {s t : State} {i : Instr} (h : Inv s) (he : exec i s = .next t) : Inv t := by
  obtain rfl | ⟨x, rfl⟩ | ⟨hb, len, data, x, rfl⟩ | ⟨-, w, hd⟩ := exec_cases he
  · exact h
  · exact h.withHostSide ..
  · refine (h.rules.storeReg len data x).toInv ?_
    rw [storeReg_frame]
    exact hb
  · exact h.commandDoes hd

/-! ### The engine -/

/-- R38: an engine step keeps the invariant: the command goes on, or is over where it stands. -/
theorem Inv.engineStep {s t : State} (h : Inv s) (he : engineStep s = .next t) : Inv t := by
  obtain ⟨hb, hrule⟩ := engineStep_iff.mp he
  have hprog := h.toInProgress hb
  have hres : ResFits t.res := hrule.resFits h.rules.resFits
  obtain ⟨hopa, hopb, hk1, hk2, hk3, -, -⟩ := hrule.sameOperands
  have htidy : Tidy t.opa ∧ Tidy t.opb ∧ Tidy t.key1 ∧ Tidy t.key2 ∧ Tidy t.key3 := by
    rw [hopa, hopb, hk1, hk2, hk3]
    exact h.rules.operandsTidy
  obtain ⟨u, hu, hadv⟩ := engineStep_advances hprog
  obtain rfl : t = u := by simpa [he] using hu
  obtain ⟨hover, -⟩ | ⟨hgoes, -⟩ := hadv
  · obtain ⟨hround, hstage⟩ := hrule.place_of_over hb hover.notBusy
    refine StateRules.toInv ?_ hover.notBusy
    exact
      { idleOrFinal := fun _ => .inr hover.final
        idleIsClear := fun hp => by simp [hover.final] at hp
        validResult := fun _ => ⟨hover.notBusy, hover.noError, hover.final, hres.1⟩
        errorIsOver := fun hne => absurd hover.noError hne
        resFits := hres
        roundBound := hround ▸ h.rules.roundBound
        stageOfCipher := by
          rw [hstage, hrule.cmd_eq, h.rules.stageOfCipher]
          simp [hprog.not_idle, hover.final]
        operandsTidy := htidy }
  · exact hgoes.toInv (hgoes.stateRules hres htidy)

end Sys2Proof.Safety

namespace Sys2Proof.Proofs

open Sys2Proof.Machine Sys2Proof.Safety

/-- Settles O40: one case for each agent, by what an instruction and an engine step keep. -/
theorem everyStepKeepsTheInvariant : Obligations.EveryStepKeepsTheInvariant := by
  intro s t h hstep
  obtain ⟨-, -, rfl⟩ | ⟨-, he⟩ | ⟨w, rest, p, -, -, he⟩ | ⟨rest, i, p, -, he⟩ |
    ⟨rest, p, -, rfl⟩ := step_cases hstep
  · exact h
  · exact (h.withHostSide ..).engineStep he
  · exact (h.withHostSide ..).exec he
  · exact (h.withHostSide ..).exec he
  · exact inv_reset.withHostSide ..

/-- Settles O41: the rules of R38 and the invariant do not look at the list of inputs. -/
theorem resetMeetsTheInvariant : Obligations.ResetMeetsTheInvariant :=
  fun events => inv_reset.withHostSide events [] 0 0

/-- Settles O42: the invariant holds at reset and every step keeps it. -/
theorem reachableStatesObeyTheRules : Obligations.ReachableStatesObeyTheRules := by
  intro s h
  have hinv : Inv s := by
    induction h with
    | start events => exact resetMeetsTheInvariant events
    | next _ hstep ih => exact everyStepKeepsTheInvariant _ _ ih hstep
  exact hinv.rules

end Sys2Proof.Proofs
end

section
/-!
PROOFS. A command instruction as one write of its word to CMD (30_encoding.md R94;
45_host_transfers.md R194), and that no well-formed instruction stops the machine (R191, R194, R197 to R199).
-/
namespace Sys2Proof.Machine

open Sys2Proof.Safety

/-- The validation of a command (R109, R127, R143, R158, R178). A transaction is no command. -/
def checksOf : Instr → State → Option ErrCode
  | .permCustom => validatePerm .custom
  | .permIp => validatePerm .ip
  | .permFp => validatePerm .fp
  | .permE => validatePerm .e
  | .permP => validatePerm .p
  | .permPc1 => validatePerm .pc1
  | .permPc2 => validatePerm .pc2
  | .ksched k => validateKsched k
  | .feistel => validateFeistel
  | .desEnc k => validateDes k
  | .desDec k => validateDes k
  | .tdes2Enc => validateTdes false
  | .tdes2Dec => validateTdes false
  | .tdes3Enc => validateTdes true
  | .tdes3Dec => validateTdes true
  | .wr _ _ _ => fun _ => none
  | .rd _ => fun _ => none

/-- The acceptance of a command word (R194). -/
def acceptanceOf (w : CmdWord) : State → State := if IsCipher w then acceptBlock else accept

theorem acceptanceOf_cipher {w : CmdWord} (h : IsCipher w) : acceptanceOf w = acceptBlock :=
  if_pos h

theorem acceptanceOf_single {w : CmdWord} (h : ¬ IsCipher w) : acceptanceOf w = accept := if_neg h

section
variable {i : Instr} {w : CmdWord}

/-- R94, R194: a command instruction writes its word, with its validation and acceptance. -/
theorem exec_eq_command (h : encode i = .cw w) (s : State) :
    exec i s = command w (checksOf i) (acceptanceOf w) s := by
  cases i <;> simp only [encode, Encoding.cw.injEq, reduceCtorEq] at h <;> subst h
  case ksched k => cases k <;> rfl
  case desEnc k => cases k <;> rfl
  case desDec k => cases k <;> rfl
  all_goals rfl

@[simp] theorem checksOf_takeWord (i : Instr) (w : CmdWord) (s : State) :
    checksOf i (takeWord w s) = checksOf i s := by
  cases i <;> rfl

/-- A command never stops the machine (R194, R195). -/
theorem exec_command_next (h : encode i = .cw w) (s : State) : ∃ t, exec i s = .next t := by
  rw [exec_eq_command h]
  exact command_next ..

end

/-! ### Transactions -/

/-- A write to CMD never stops the machine (R84, R194). -/
theorem writeCmd_next (data : Data) (s : State) : ∃ t, writeCmd data s = .next t := by
  unfold writeCmd
  split
  · rename_i i hi
    have he := encode_of_decodeCommand hi
    cases i
    case wr => simp [encode] at he
    case rd => simp [encode] at he
    all_goals exact exec_command_next he s
  · exact command_next ..

/-- An effect that answers a next state does so whether it is held or not (R195). -/
theorem whenFree_next {s : State} {effect : Out} (h : ∃ t, effect = .next t) :
    ∃ t, whenFree s effect = .next t := by
  unfold whenFree
  split
  · exact ⟨s, rfl⟩
  · exact h

section
variable {idx : RegIdx} {x : Reg} {s : State}

/-- A write of a mapped register never stops the machine (R191). -/
theorem execWr_next (h : regAt idx = some x) (len : LenTag) (data : Data) (s : State) :
    ∃ t, execWr idx len data s = .next t := by
  refine whenFree_next ?_
  cases x <;> simp only [h]
  case cmd => exact writeCmd_next data s
  all_goals exact ⟨_, rfl⟩

/-- A read of a mapped register never stops the machine (R197). -/
theorem execRd_next (h : regAt idx = some x) (s : State) : ∃ t, execRd idx s = .next t := by
  unfold execRd
  cases x <;> simp only [h]
  case status => exact ⟨_, rfl⟩
  all_goals exact whenFree_next ⟨_, rfl⟩

/-- R198: with BUSY = 0 a write at a reserved index is refused. -/
theorem execWr_reserved (h : regAt idx = none) (hb : s.busy = false) (len : LenTag)
    (data : Data) : execWr idx len data s = .refused (.reservedIndex idx) := by
  simp only [execWr, h, whenFree_free hb]

/-- R198: with BUSY = 0 a read at a reserved index is refused. -/
theorem execRd_reserved (h : regAt idx = none) (hb : s.busy = false) :
    execRd idx s = .refused (.reservedIndex idx) := by
  simp only [execRd, h, whenFree_free hb]

/-- An index that is not reserved has its register (R21, R198). -/
theorem regAt_of_not_reserved (h : reservedIndex idx = false) : ∃ x, regAt idx = some x := by
  refine Option.ne_none_iff_exists'.mp fun hn => ?_
  simp [(regAt_eq_none_iff idx).mp hn] at h

end

end Sys2Proof.Machine

namespace Sys2Proof.Proofs

open Sys2Proof.Machine

/-- Settles O16: a reserved index has no register; every other instruction has its next state. -/
theorem onlyReservedIndicesAreRefused : Obligations.OnlyReservedIndicesAreRefused := by
  refine ⟨fun idx len data s hb hidx => ?_, fun i s hw => ?_⟩
  · have hnone : regAt idx = none := by
      rw [regAt_eq_none_iff]
      have := idx.isLt
      simp only [reservedIndex, Bool.or_eq_true, Bool.and_eq_true, decide_eq_true_eq]
      omega
    exact ⟨execWr_reserved hnone hb len data, execRd_reserved hnone hb⟩
  · cases i
    case wr idx len data =>
      obtain ⟨x, hx⟩ := regAt_of_not_reserved (by simpa [WellFormed] using hw)
      exact execWr_next hx len data s
    case rd idx =>
      obtain ⟨x, hx⟩ := regAt_of_not_reserved (by simpa [WellFormed] using hw)
      exact execRd_next hx s
    all_goals exact exec_command_next rfl s

end Sys2Proof.Proofs
end

section
/-!
PROOFS. The writers of RK and of RK_VALID (10_state.md R27, R32).
-/
namespace Sys2Proof.Machine

/-- R27: no instruction's own step writes RK or RK_VALID. -/
theorem exec_keepsRoundKeys {i : Instr} {s t : State} (h : exec i s = .next t) :
    t.rk = s.rk ∧ t.rkValid = s.rkValid := by
  obtain rfl | ⟨x, rfl⟩ | ⟨-, len, data, x, rfl⟩ | ⟨-, w, hd⟩ := exec_cases h
  · exact ⟨rfl, rfl⟩
  · exact ⟨rfl, rfl⟩
  · rw [storeReg_frame]
    exact ⟨rfl, rfl⟩
  · obtain ⟨-, rfl⟩ | ⟨-, e, -, rfl⟩ | ⟨-, -, -, rfl⟩ | ⟨-, -, -, rfl⟩ := hd <;> exact ⟨rfl, rfl⟩

/-- R27: an engine step that finds RK_VALID = 1 leaves it so. -/
theorem engineStep_keepsRkValid {s t : State} (h : engineStep s = .next t)
    (hv : s.rkValid = true) : t.rkValid = true := by
  obtain ⟨-, hsame⟩ | ⟨-, -, hset⟩ := (engineStep_iff.mp h).2.rk_cases
  · exact hsame.trans hv
  · exact hset

end Sys2Proof.Machine

namespace Sys2Proof.Proofs

open Sys2Proof.Machine

/-- Settles O35: an engine step that is not by one of the two rules leaves RK as it was. -/
theorem roundKeysHaveTwoWriters : Obligations.RoundKeysHaveTwoWriters := by
  refine ⟨fun i s t h => (exec_keepsRoundKeys h).1, fun s t h hne => ?_⟩
  obtain ⟨hsame, -⟩ | hwriter := (engineStep_iff.mp h).2.rk_cases
  · exact absurd hsame hne
  · exact hwriter

/-- Settles O36: one case for each agent. -/
theorem onlyResetClearsRkValid : Obligations.OnlyResetClearsRkValid := by
  intro s t hnr hstep hv
  obtain ⟨-, -, rfl⟩ | ⟨-, he⟩ | ⟨w, rest, p, -, -, he⟩ | ⟨rest, i, p, -, he⟩ |
    ⟨rest, p, hi, -⟩ := step_cases hstep
  · exact hv
  · exact engineStep_keepsRkValid he hv
  · exact (exec_keepsRoundKeys he).2.trans hv
  · exact (exec_keepsRoundKeys he).2.trans hv
  · exact absurd hi (hnr rest)

end Sys2Proof.Proofs
end

section
/-!
PROOFS. The round keys bit by bit, and KSCHED carried out (41_key_schedule.md R121 to R123, R128).
-/
namespace Sys2Proof.Machine

open Sys2Proof.Safety

/-- C_i or D_i from C_0 or D_0: the half after the first i rotations (R122, R123). -/
def halfAfter (c : KeyHalf) (i : Nat) : KeyHalf := (shifts.take i).foldl rotl c

/-- C_{i+1} is C_i rotated by the amount of round i + 1 (R123). -/
theorem halfAfter_succ (c : KeyHalf) {i : Nat} (h : i < 16) :
    halfAfter c (i + 1) = rotl (halfAfter c i) (shifts.getD i 0) := by
  have hi : i < shifts.length := h
  rw [halfAfter, List.take_add_one, List.foldl_append, List.getElem?_eq_getElem hi,
    List.getD_eq_getElem _ _ hi]
  rfl

/-- The bits of a rotated half (00_scope.md R11). -/
theorem getMsbD_rotl (c : KeyHalf) (a : Nat) {j : Nat} (h : j < 28) :
    (rotl c a).getMsbD j = c.getMsbD ((j + a) % 28) := by
  rw [rotl, BitVec.getMsbD_rotateLeft, Nat.add_comm a j]
  simp [h]

/-- Each round key of a schedule is PC2 of the halves after its rotations (R123). -/
theorem scheduleFrom_getElem (as : List Nat) (c d : KeyHalf) (i : Nat)
    (h : i < (scheduleFrom as c d).length) : (scheduleFrom as c d)[i] =
      gather 48 pc2Table ((as.take (i + 1)).foldl rotl c ++ (as.take (i + 1)).foldl rotl d) := by
  induction as generalizing c d i with
  | nil => exact absurd h (Nat.not_lt_zero i)
  | cons a as ih =>
    cases i with
    | zero => rfl
    | succ i => exact ih (rotl c a) (rotl d a) i (Nat.lt_of_succ_lt_succ h)

/-- K_{i+1} is PC2 of C_{i+1} ‖ D_{i+1} (R123). -/
theorem ksched_getElem (key : Block) (i : Fin 16) : (ksched key)[i] =
    gather 48 pc2Table (halfAfter (keyC key) (i + 1) ++ halfAfter (keyD key) (i + 1)) :=
  scheduleFrom_getElem shifts (keyC key) (keyD key) i _

/-- C_0 is the first half of PC1 of the key (R121). -/
theorem getMsbD_keyC (key : Block) {j : Nat} (h : j < 28) :
    (keyC key).getMsbD j = key.getMsbD (pc1Table.getD j 0 - 1) := by
  have hle : 28 + 28 - j ≤ 56 := by omega
  have hj : 56 - (28 + 28 - j) = j := by omega
  rw [keyC, BitVec.getMsbD_extractLsb', hj, getMsbD_gather pc1Table key (by omega : j < 56)]
  simp [h, hle]

/-- D_0 is the second half of PC1 of the key (R121). -/
theorem getMsbD_keyD (key : Block) {j : Nat} (h : j < 28) :
    (keyD key).getMsbD j = key.getMsbD (pc1Table.getD (28 + j) 0 - 1) := by
  have hle : 0 + 28 - j ≤ 56 := by omega
  have hj : 56 - (0 + 28 - j) = 28 + j := by omega
  rw [keyD, BitVec.getMsbD_extractLsb', hj, getMsbD_gather pc1Table key (by omega : 28 + j < 56)]
  simp [h, hle]

/-- R121 to R123: `ksched` is the key schedule. -/
theorem roundKeys_ksched (key : Block) : RoundKeys key (ksched key) := by
  refine ⟨halfAfter (keyC key), halfAfter (keyD key),
    fun j hj => ⟨getMsbD_keyC key hj, getMsbD_keyD key hj⟩,
    fun i => ⟨fun j hj => ?_, fun j hj => ?_⟩⟩
  · rw [halfAfter_succ _ i.isLt, halfAfter_succ _ i.isLt]
    exact ⟨getMsbD_rotl _ _ hj, getMsbD_rotl _ _ hj⟩
  · rw [ksched_getElem]
    exact getMsbD_gather pc2Table _ hj

/-- The word of KSCHED k names the operation and the slot (R77, R79). -/
theorem fields_of_encode_ksched {k : KeySlot} {w : CmdWord} (h : encode (.ksched k) = .cw w) :
    cwOp w = 2 ∧ kselSlot (cwKsel w) = some k := by
  obtain rfl : cwOf 2 0 0 (slotKsel k) 0 = w := by simpa [encode] using h
  cases k <;> decide

end Sys2Proof.Machine

namespace Sys2Proof.Proofs

open Sys2Proof.Machine Sys2Proof.Safety

/-- Settles O28: KSCHED's one step is by its rule, and the schedule is followed half by half. -/
theorem keyScheduleResult : Obligations.KeyScheduleResult := by
  refine ⟨fun s k w hw hb hlen => ?_, roundKeys_ksched, by decide +kernel, by decide +kernel⟩
  obtain ⟨hop, hsel⟩ := fields_of_encode_ksched hw
  have hkey : keyslot (acceptedState w 0 s.blk s) k = keyslot s k :=
    keyslot_congr (sameOperands_acceptedState ..) k
  have hrule := EngineRule.ksched (s := acceptedState w 0 s.blk s) k hop rfl hsel
    (hkey.symm ▸ hlen)
  rw [hkey] at hrule
  have hv : checksOf (.ksched k) (takeWord w s) = none :=
    validateKsched_eq_none.mpr (by simpa using hlen)
  refine ⟨?_, completesIn_one rfl (engineStep_iff.mpr ⟨rfl, hrule⟩) rfl⟩
  rw [exec_eq_command hw, command_accepted hb hv, acceptanceOf_single (by simp [IsCipher, hop])]
  rfl

end Sys2Proof.Proofs
end

section
/-!
PROOFS. Two runs of one command whose states agree on the operands it names agree on all that the
command computes (10_state.md R37).
-/
namespace Sys2Proof.Machine

open Sys2Proof.Safety

/-! ### The operands a command word names -/

/-- Two states agree on the operand registers that the command word w names (R79). -/
inductive SameNamed (w : CmdWord) (s s' : State) : Prop
  | perm (x : TableSel) (op : cwOp w = 1) (sel : tselTable (cwTsel w) = some x)
      (opa : s'.opa = s.opa) (custom : x = .custom → s'.tbl = s.tbl ∧ s'.tblLen = s.tblLen) :
      SameNamed w s s'
  | ksched (k : KeySlot) (op : cwOp w = 2) (sel : kselSlot (cwKsel w) = some k)
      (key : keyslot s' k = keyslot s k) : SameNamed w s s'
  | feistel (op : cwOp w = 3) (opa : s'.opa = s.opa) (opb : s'.opb = s.opb) : SameNamed w s s'
  | des (k : KeySlot) (op : cwOp w = 4) (sel : kselSlot (cwKsel w) = some k)
      (opa : s'.opa = s.opa) (key : keyslot s' k = keyslot s k) : SameNamed w s s'
  | tdes (op : cwOp w = 5) (opa : s'.opa = s.opa) (key1 : s'.key1 = s.key1)
      (key2 : s'.key2 = s.key2) (key3 : cwK3en w = 1 → s'.key3 = s.key3) : SameNamed w s s'

section
variable {i : Instr} {w : CmdWord} {s s' t t' : State}

/-- The operands a command names are those its word names (R79, R80). -/
theorem sameNamed_of_namedOperands (hw : encode i = .cw w) (h : NamedOperands i s s') :
    SameNamed w s s' := by
  cases i <;> simp only [encode, Encoding.cw.injEq, reduceCtorEq] at hw <;> subst hw
  case permCustom =>
    obtain ⟨hopa, htbl, hlen⟩ := h
    exact .perm .custom rfl rfl hopa fun _ => ⟨htbl, hlen⟩
  case permIp => exact .perm .ip rfl rfl h nofun
  case permFp => exact .perm .fp rfl rfl h nofun
  case permE => exact .perm .e rfl rfl h nofun
  case permP => exact .perm .p rfl rfl h nofun
  case permPc1 => exact .perm .pc1 rfl rfl h nofun
  case permPc2 => exact .perm .pc2 rfl rfl h nofun
  case ksched k => exact .ksched k (fields_cwOf ..).1 (by cases k <;> rfl) h
  case feistel =>
    obtain ⟨hopa, hopb⟩ := h
    exact .feistel rfl hopa hopb
  case desEnc k =>
    obtain ⟨hopa, hkey⟩ := h
    exact .des k (fields_cwOf ..).1 (by cases k <;> rfl) hopa hkey
  case desDec k =>
    obtain ⟨hopa, hkey⟩ := h
    exact .des k (fields_cwOf ..).1 (by cases k <;> rfl) hopa hkey
  case tdes2Enc =>
    obtain ⟨hopa, h1, h2⟩ := h
    exact .tdes rfl hopa h1 h2 fun h3 => absurd h3 (by decide)
  case tdes2Dec =>
    obtain ⟨hopa, h1, h2⟩ := h
    exact .tdes rfl hopa h1 h2 fun h3 => absurd h3 (by decide)
  case tdes3Enc =>
    obtain ⟨hopa, h1, h2, h3⟩ := h
    exact .tdes rfl hopa h1 h2 fun _ => h3
  case tdes3Dec =>
    obtain ⟨hopa, h1, h2, h3⟩ := h
    exact .tdes rfl hopa h1 h2 fun _ => h3

/-- States that agree on the named operands still do where neither has changed an operand (R195). -/
theorem SameNamed.congr (h : SameNamed w s s') (hs : SameOperands s t) (hs' : SameOperands s' t') :
    SameNamed w t t' := by
  have hkey : ∀ k, keyslot s' k = keyslot s k → keyslot t' k = keyslot t k := fun k hk => by
    rw [keyslot_congr hs', keyslot_congr hs, hk]
  obtain ⟨a1, a2, a3, a4, a5, a6, a7⟩ := hs
  obtain ⟨b1, b2, b3, b4, b5, b6, b7⟩ := hs'
  cases h with
  | perm x op sel opa custom =>
    exact .perm x op sel (by rw [a1, b1, opa]) fun hx => by
      obtain ⟨htbl, hlen⟩ := custom hx
      exact ⟨by rw [a6, b6, htbl], by rw [a7, b7, hlen]⟩
  | ksched k op sel key => exact .ksched k op sel (hkey k key)
  | feistel op opa opb => exact .feistel op (by rw [a1, b1, opa]) (by rw [a2, b2, opb])
  | des k op sel opa key => exact .des k op sel (by rw [a1, b1, opa]) (hkey k key)
  | tdes op opa key1 key2 key3 =>
    exact .tdes op (by rw [a1, b1, opa]) (by rw [a3, b3, key1]) (by rw [a4, b4, key2])
      fun h3 => by rw [a5, b5, key3 h3]

/-! ### What the named operands decide -/

theorem tableOf_of_sameTable {x : TableSel}
    (h : x = .custom → s'.tbl = s.tbl ∧ s'.tblLen = s.tblLen) : tableOf s' x = tableOf s x := by
  cases x with
  | custom =>
    obtain ⟨htbl, hlen⟩ := h rfl
    simp only [tableOf, htbl, hlen]
  | _ => rfl

theorem validatePerm_of_sameTable {x : TableSel} (hopa : s'.opa = s.opa)
    (h : x = .custom → s'.tbl = s.tbl ∧ s'.tblLen = s.tblLen) :
    validatePerm x s' = validatePerm x s := by
  have hlen : (x = .custom ∧ 64 < s'.tblLen.toNat) ↔ (x = .custom ∧ 64 < s.tblLen.toNat) :=
    and_congr_right fun hx => by rw [(h hx).2]
  simp only [validatePerm, tableOf_of_sameTable h, hopa, hlen]

/-- R37: the named operands decide whether the command is refused, and with which code. -/
theorem checksOf_of_namedOperands (h : NamedOperands i s s') : checksOf i s' = checksOf i s := by
  cases i
  case permCustom =>
    obtain ⟨hopa, htbl, hlen⟩ := h
    exact validatePerm_of_sameTable hopa fun _ => ⟨htbl, hlen⟩
  case ksched k =>
    have hkey : keyslot s' k = keyslot s k := h
    simp only [checksOf, validateKsched, hkey]
  case feistel =>
    obtain ⟨hopa, hopb⟩ := h
    simp only [checksOf, validateFeistel, hopa, hopb]
  case desEnc k =>
    obtain ⟨hopa, hkey⟩ := h
    simp only [checksOf, validateDes, hopa, hkey]
  case desDec k =>
    obtain ⟨hopa, hkey⟩ := h
    simp only [checksOf, validateDes, hopa, hkey]
  case tdes2Enc =>
    obtain ⟨hopa, h1, h2⟩ := h
    simp only [checksOf, validateTdes, hopa, h1, h2, Bool.false_eq_true, false_and]
  case tdes2Dec =>
    obtain ⟨hopa, h1, h2⟩ := h
    simp only [checksOf, validateTdes, hopa, h1, h2, Bool.false_eq_true, false_and]
  case tdes3Enc =>
    obtain ⟨hopa, h1, h2, h3⟩ := h
    simp only [checksOf, validateTdes, hopa, h1, h2, h3]
  case tdes3Dec =>
    obtain ⟨hopa, h1, h2, h3⟩ := h
    simp only [checksOf, validateTdes, hopa, h1, h2, h3]
  case wr => rfl
  case rd => rfl
  all_goals exact validatePerm_of_sameTable h nofun

/-- The operands of PERM (R110). -/
theorem SameNamed.perm_operands {x : TableSel} (h : SameNamed w s s') (ho : cwOp w = 1)
    (hx : tselTable (cwTsel w) = some x) : s'.opa = s.opa ∧
      (x = .custom → s'.tbl = s.tbl ∧ s'.tblLen = s.tblLen) := by
  cases h with
  | perm y op sel opa custom =>
    obtain rfl : x = y := by simpa [hx] using sel
    exact ⟨opa, custom⟩
  | ksched _ op | feistel op | des _ op | tdes op => simp [ho] at op

theorem SameNamed.ksched_key {k : KeySlot} (h : SameNamed w s s') (ho : cwOp w = 2)
    (hk : kselSlot (cwKsel w) = some k) : keyslot s' k = keyslot s k := by
  cases h with
  | ksched j op sel key =>
    obtain rfl : k = j := by simpa [hk] using sel
    exact key
  | perm _ op | feistel op | des _ op | tdes op => simp [ho] at op

theorem SameNamed.feistel_operands (h : SameNamed w s s') (ho : cwOp w = 3) :
    s'.opa = s.opa ∧ s'.opb = s.opb := by
  cases h with
  | feistel op opa opb => exact ⟨opa, opb⟩
  | perm _ op | ksched _ op | des _ op | tdes op => simp [ho] at op

theorem SameNamed.cipher_block (h : SameNamed w s s') (hc : IsCipher w) : s'.opa = s.opa := by
  cases h with
  | des _ _ _ opa | tdes _ opa => exact opa
  | perm _ op | ksched _ op | feistel op => simp [IsCipher, op] at hc

/-- The key of every stage is a named operand (R159, R177). -/
theorem SameNamed.stage_key {k : KeySlot} {st : BitVec 2} (h : SameNamed w s s')
    (hc : IsCipher w) (hk : stageKey w st = some k) : keyslot s' k = keyslot s k := by
  cases h with
  | des j op sel _ key =>
    obtain rfl : j = k := by simpa [stageKey, op, sel] using hk
    exact key
  | tdes op _ key1 key2 key3 =>
    obtain rfl : tdesStageKey w st = k := by simpa [stageKey, op] using hk
    obtain hk | hk | ⟨h3, hk⟩ := tdesStageKey_cases w st <;> rw [hk]
    · exact key1
    · exact key2
    · exact key3 h3
  | perm _ op | ksched _ op | feistel op => simp [IsCipher, op] at hc

/-! ### Runs side by side -/

/-- What steers the engine, and what the host sees of it but for RES and RK. -/
def control (s : State) : CmdWord × Bool × ErrCode × Phase × BitVec 5 × BitVec 2 × Bool :=
  (s.cmd, s.busy, s.err, s.phase, s.round, s.stage, s.resValid)

theorem control_eq_iff : control s' = control s ↔ s'.cmd = s.cmd ∧ s'.busy = s.busy ∧
    s'.err = s.err ∧ s'.phase = s.phase ∧ s'.round = s.round ∧ s'.stage = s.stage ∧
    s'.resValid = s.resValid := by
  simp only [control, Prod.mk.injEq]

/-- The key schedule of a stage is still to be computed (R128, R160). -/
def AtInit (s : State) : Prop := s.busy = true ∧ s.phase = .init

/-- Two states of one command's runs agree on all that its steps from here on look at: the
operands it names, and of what its steps have written, what they still read or leave as its result. -/
structure Alike (w : CmdWord) (s s' : State) : Prop where
  cmd : s.cmd = w
  sameControl : control s' = control s
  named : SameNamed w s s'
  res : s.resValid = true → s'.res = s.res
  blk : IsCipher w → s'.blk = s.blk
  keys : cwOp w = 2 ∨ IsCipher w → ¬ AtInit s →
    s'.rk = s.rk ∧ s.rkValid = true ∧ s'.rkValid = true
  halves : IsCipher w → ¬ AtInit s → s'.l = s.l ∧ s'.r = s.r

/-- Two states of one command's runs stay alike over a rule of each, equal in what it writes. -/
theorem Alike.of_rules (h : Alike w s s') (hr : EngineRule s t) (hr' : EngineRule s' t')
    (sameControl : control t' = control t) (res : t.resValid = true → t'.res = t.res)
    (blk : IsCipher w → t'.blk = t.blk)
    (keys : cwOp w = 2 ∨ IsCipher w → ¬ AtInit t →
      t'.rk = t.rk ∧ t.rkValid = true ∧ t'.rkValid = true)
    (halves : IsCipher w → ¬ AtInit t → t'.l = t.l ∧ t'.r = t.r) : Alike w t t' :=
  ⟨hr.cmd_eq.trans h.cmd, sameControl, h.named.congr hr.sameOperands hr'.sameOperands, res, blk,
    keys, halves⟩

/-- PERM and FEISTEL write RES from their operands only (R110, R144). -/
theorem Alike.complete {x : VecReg} (h : Alike w s s') (ho : cwOp w = 1 ∨ cwOp w = 3)
    (hr : EngineRule s (complete x s)) (hr' : EngineRule s' (complete x s')) :
    Alike w (complete x s) (complete x s') := by
  have hctl := control_eq_iff.mp h.sameControl
  refine h.of_rules hr hr' (by simp [control_eq_iff, hctl]) (fun _ => rfl) h.blk ?_ ?_
  · rcases ho with ho | ho <;> simp [IsCipher, ho]
  · rcases ho with ho | ho <;> simp [IsCipher, ho]

/-- R37: where one of two runs steps by a rule, the other does too, and they stay alike. -/
theorem EngineRule.alike (hr : EngineRule s t) (h : Alike w s s') :
    ∃ t', EngineRule s' t' ∧ Alike w t t' := by
  obtain rfl := h.cmd
  have hctl := control_eq_iff.mp h.sameControl
  obtain ⟨hcmd, -, -, hphase, hround, hstage, -⟩ := id hctl
  have hwritten : s.phase ≠ .init → ¬ AtInit s := fun hp hi => hp hi.2
  cases hr with
  | perm x op init sel valid =>
    obtain ⟨hopa, hcustom⟩ := h.named.perm_operands op sel
    have hr' := EngineRule.perm (s := s') x (hcmd ▸ op) (hphase ▸ init) (hcmd ▸ sel)
      ((validatePerm_of_sameTable hopa hcustom).trans valid)
    rw [permOutput, tableOf_of_sameTable hcustom, hopa] at hr'
    exact ⟨_, hr', h.complete (.inl op) (.perm x op init sel valid) hr'⟩
  | ksched k op init sel len =>
    have hkey := h.named.ksched_key op sel
    have hr' := EngineRule.ksched (s := s') k (hcmd ▸ op) (hphase ▸ init) (hcmd ▸ sel) (hkey ▸ len)
    rw [hkey] at hr'
    refine ⟨_, hr', h.of_rules (.ksched k op init sel len) hr' (by simp [control_eq_iff, hctl])
      h.res h.blk (fun _ _ => ⟨rfl, rfl, rfl⟩) ?_⟩
    simp [IsCipher, op]
  | feistel op init valid =>
    obtain ⟨hopa, hopb⟩ := h.named.feistel_operands op
    have hr' := EngineRule.feistel (s := s') (hcmd ▸ op) (hphase ▸ init)
      (by simpa only [validateFeistel, hopa, hopb] using valid)
    rw [hopa, hopb] at hr'
    exact ⟨_, hr', h.complete (.inr op) (.feistel op init valid) hr'⟩
  | permuted k cipher init key len =>
    have hkey := h.named.stage_key cipher key
    have hr' := EngineRule.permuted (s := s') k (hcmd ▸ cipher) (hphase ▸ init)
      (by rw [hcmd, hstage, key]) (hkey ▸ len)
    rw [hkey, h.blk cipher] at hr'
    exact ⟨_, hr', h.of_rules (.permuted k cipher init key len) hr'
      (by simp [control_eq_iff, hctl]) h.res h.blk (fun _ _ => ⟨rfl, rfl, rfl⟩)
      fun _ _ => ⟨rfl, rfl⟩⟩
  | round k cipher place key =>
    have hpast : ¬ AtInit s := hwritten (by rcases place with hp | ⟨hp, -⟩ <;> simp [hp])
    obtain ⟨hrk, -, -⟩ := h.keys (.inr cipher) hpast
    obtain ⟨hl, hr⟩ := h.halves cipher hpast
    have hr' := EngineRule.round (s := s') k (hcmd ▸ cipher) (by rwa [hphase, hround])
      (by rw [hcmd, hstage, hround, hrk, key])
    rw [hl, hr, hround] at hr'
    exact ⟨_, hr', h.of_rules (.round k cipher place key) hr' (by simp [control_eq_iff, hctl])
      h.res h.blk (fun hc _ => h.keys hc hpast) fun _ _ => ⟨rfl, rfl⟩⟩
  | swapped cipher place last =>
    have hpast : ¬ AtInit s := hwritten (by simp [place])
    obtain ⟨hl, hr⟩ := h.halves cipher hpast
    have hr' := EngineRule.swapped (s := s') (hcmd ▸ cipher) (hphase ▸ place) (hround ▸ last)
    exact ⟨_, hr', h.of_rules (.swapped cipher place last) hr' (by simp [control_eq_iff, hctl])
      h.res (fun _ => by rw [formPreOutput_blk, formPreOutput_blk, hl, hr])
      (fun hc _ => h.keys hc hpast) fun hc _ => h.halves hc hpast⟩
  | output cipher place more =>
    have hpast : ¬ AtInit s := hwritten (by simp [place])
    have hr' := EngineRule.output (s := s') (hcmd ▸ cipher) (hphase ▸ place)
      (by rwa [hcmd, hstage])
    rw [h.blk cipher] at hr'
    exact ⟨_, hr', h.of_rules (.output cipher place more) hr' (by simp [control_eq_iff, hctl])
      h.res (fun _ => rfl) (fun hc _ => h.keys hc hpast) fun hc _ => h.halves hc hpast⟩
  | result cipher place last =>
    have hpast : ¬ AtInit s := hwritten (by simp [place])
    have hr' := EngineRule.result (s := s') (hcmd ▸ cipher) (hphase ▸ place)
      (by rwa [hcmd, hstage])
    rw [h.blk cipher] at hr'
    exact ⟨_, hr', h.of_rules (.result cipher place last) hr' (by simp [control_eq_iff, hctl])
      (fun _ => rfl) (fun _ => rfl) (fun hc _ => h.keys hc hpast)
      fun hc _ => h.halves hc hpast⟩
  | nextStage op final more =>
    have hpast : ¬ AtInit s := hwritten (by simp [final])
    have hr' := EngineRule.nextStage (s := s') (hcmd ▸ op) (hphase ▸ final) (hstage ▸ more)
    exact ⟨_, hr', h.of_rules (.nextStage op final more) hr' (by simp [control_eq_iff, hctl])
      h.res h.blk (fun hc _ => h.keys hc hpast) fun hc _ => h.halves hc hpast⟩

/-- R37: equal numbers of engine steps lead alike states to alike states. -/
theorem engineRun_alike {n : Nat} {v v' : State} (h : Alike w s s') (hv : engineRun n s = .next v)
    (hv' : engineRun n s' = .next v') : Alike w v v' := by
  induction n generalizing s s' with
  | zero =>
    obtain rfl : s = v := by simpa [engineRun] using hv
    obtain rfl : s' = v' := by simpa [engineRun] using hv'
    exact h
  | succ n ih =>
    cases hs : engineStep s with
    | next t =>
      obtain ⟨hb, hr⟩ := engineStep_iff.mp hs
      obtain ⟨t', hr', ht⟩ := hr.alike h
      have hb' : s'.busy = true := (control_eq_iff.mp h.sameControl).2.1.trans hb
      rw [engineRun_succ hs] at hv
      rw [engineRun_succ (engineStep_iff.mpr ⟨hb', hr'⟩)] at hv'
      exact ih ht hv hv'
    | fault f => simp [engineRun, hs] at hv
    | refused x => simp [engineRun, hs] at hv

/-! ### From acceptance or refusal -/

/-- R194: a command accepted in two states that agree on its operands starts alike. -/
theorem alike_accepted (hw : encode i = .cw w) (h : NamedOperands i s s') :
    Alike w (acceptanceOf w (takeWord w s)) (acceptanceOf w (takeWord w s')) := by
  have hnamed := sameNamed_of_namedOperands hw h
  by_cases hc : IsCipher w
  · have hopa := hnamed.cipher_block hc
    rw [acceptanceOf_cipher hc]
    exact
      { cmd := rfl
        sameControl := rfl
        named := hnamed.congr ⟨rfl, rfl, rfl, rfl, rfl, rfl, rfl⟩
          ⟨rfl, rfl, rfl, rfl, rfl, rfl, rfl⟩
        res := nofun
        blk := fun _ => congrArg VecReg.bits hopa
        keys := fun _ hi => absurd ⟨rfl, rfl⟩ hi
        halves := fun _ hi => absurd ⟨rfl, rfl⟩ hi }
  · rw [acceptanceOf_single hc]
    exact
      { cmd := rfl
        sameControl := rfl
        named := hnamed.congr ⟨rfl, rfl, rfl, rfl, rfl, rfl, rfl⟩
          ⟨rfl, rfl, rfl, rfl, rfl, rfl, rfl⟩
        res := nofun
        blk := fun h => absurd h hc
        keys := fun _ hi => absurd ⟨rfl, rfl⟩ hi
        halves := fun _ hi => absurd ⟨rfl, rfl⟩ hi }

/-- R37: two states that agree on a command's operands refuse it with one code, or both
accept it and start alike. -/
theorem exec_command_alike {u u' : State} (hw : encode i = .cw w) (hb : s.busy = false)
    (hb' : s'.busy = false) (h : NamedOperands i s s') (hu : exec i s = .next u)
    (hu' : exec i s' = .next u') :
    (∃ e, u = raise e (takeWord w s) ∧ u' = raise e (takeWord w s')) ∨ Alike w u u' := by
  rw [exec_eq_command hw] at hu hu'
  have hchecks : checksOf i (takeWord w s') = checksOf i (takeWord w s) := by
    simpa using checksOf_of_namedOperands h
  cases hv : checksOf i (takeWord w s) with
  | some e =>
    rw [command_refused hb hv] at hu
    rw [command_refused hb' (hchecks.trans hv)] at hu'
    cases hu
    cases hu'
    exact .inl ⟨e, rfl, rfl⟩
  | none =>
    rw [command_accepted hb hv] at hu
    rw [command_accepted hb' (hchecks.trans hv)] at hu'
    cases hu
    cases hu'
    exact .inr (alike_accepted hw h)

/-- R213: after a refused command the engine has no step. -/
theorem engineRun_idle {n : Nat} {v : State} (hb : s.busy = false) (h : engineRun n s = .next v) :
    v = s := by
  cases n with
  | zero => simpa [engineRun] using h.symm
  | succ n => simp [engineRun, engineStep, hb] at h

end

end Sys2Proof.Machine

namespace Sys2Proof.Proofs

open Sys2Proof.Machine Sys2Proof.Safety

/-- Settles O39: a refused command leaves one code and no step; the runs of an accepted one stay
alike. -/
theorem resultDependsOnOperandsOnly : Obligations.ResultDependsOnOperandsOnly := by
  intro i w s s' u u' v v' n hw hb hb' hnamed hu hu' hv hv'
  obtain ⟨e, rfl, rfl⟩ | halike := exec_command_alike hw hb hb' hnamed hu hu'
  · obtain rfl := engineRun_idle rfl hv
    obtain rfl := engineRun_idle rfl hv'
    simp
  · have hend := engineRun_alike halike hv hv'
    obtain ⟨-, -, herr, -⟩ := control_eq_iff.mp halike.sameControl
    obtain ⟨-, hbusy, -, hphase, hround, hstage, hvalid⟩ := control_eq_iff.mp hend.sameControl
    exact ⟨herr.symm, hbusy.symm, hphase.symm, hround.symm, hstage.symm, hvalid.symm,
      fun hres => (hend.res hres).symm, fun _ hover hkeyed => by
        obtain ⟨hrk, h1, h2⟩ := hend.keys hkeyed fun hi =>
          absurd (hover.symm.trans hi.1) Bool.false_ne_true
        exact ⟨hrk.symm, h1, h2⟩⟩

end Sys2Proof.Proofs
end

section
/-!
PROOFS. The reset state, the STATUS word (10_state.md R31, R39), and a loaded literal
(20_memory.md R65; 30_encoding.md R93, R95).
-/
namespace Sys2Proof.Machine

section
variable (s : State)

/-- The fields of STATUS one after the other, at the sum of their widths (R31). -/
def statusFields : BitVec (14 + 2 + 5 + 3 + 4 + 1 + 1 + 1 + 1) :=
  0#14 ++ s.stage ++ s.round ++ phaseNumber s.phase ++ errNumber s.err ++ 0#1 ++
    BitVec.ofBool s.rkValid ++ BitVec.ofBool s.resValid ++ BitVec.ofBool s.busy

theorem extractLsb'_statusWord (lo len : Nat) :
    (statusWord s).extractLsb' lo len = (statusFields s).extractLsb' lo len := rfl

theorem getLsbD_statusWord (j : Nat) : (statusWord s).getLsbD j = (statusFields s).getLsbD j := rfl

end

/-- A vector of at most 64 bits, written with its length, is held as it is (R12, R192). -/
theorem vecOf_toNat {n : Nat} (v : BitVec n) (hn : n < 2 ^ 8) (hv : v.toNat < 2 ^ 64) :
    (vecOf (BitVec.ofNat 8 n) (BitVec.ofNat 64 v.toNat)).bits.toNat = v.toNat := by
  have hlen : (BitVec.ofNat 8 n).toNat = n := Nat.mod_eq_of_lt hn
  have hdata : (BitVec.ofNat 64 v.toNat).toNat = v.toNat := Nat.mod_eq_of_lt hv
  rw [vecOf_bits, hlen]
  split
  · simp only [held, BitVec.toNat_setWidth, hdata, Nat.mod_eq_of_lt v.isLt, Nat.mod_eq_of_lt hv]
  · exact hdata

/-- With BUSY = 0 a write of a register other than CMD stores (R191). -/
theorem exec_wr_store {s : State} {x : Reg} (hb : s.busy = false) (hx : x ≠ .cmd) (len : LenTag)
    (data : Data) : exec (.wr (regIdx x) len data) s = .next (storeReg len data s x) := by
  have hw : exec (.wr (regIdx x) len data) s = execWr (regIdx x) len data s := rfl
  rw [hw, execWr, whenFree_free hb, regAt_regIdx]
  cases x
  case cmd => exact absurd rfl hx
  all_goals rfl

end Sys2Proof.Machine

namespace Sys2Proof.Proofs

open Sys2Proof.Machine

/-- Settles O13: each element of the reset state by its definition. -/
theorem resetStateIsZero : Obligations.ResetStateIsZero := by
  refine ⟨?_, fun i => ?_, fun j => ?_, rfl, rfl, rfl, rfl, rfl, rfl, rfl, rfl, rfl, rfl, rfl, rfl,
    rfl⟩
  · simp [State.reset, VecReg.zero]
  · simp [State.reset]
  · simp [State.reset]

/-- Settles O14: each field starts where the ones below it end; ERR and PHASE by their codes. -/
theorem statusWordFields : Obligations.StatusWordFields := by
  intro s
  refine ⟨?busy, ?resValid, ?rkValid, ?zero, ?err, ?phase, ?round, ?stage, ?reserved⟩ <;>
    simp (disch := decide) only [getLsbD_statusWord, extractLsb'_statusWord, statusFields,
      BitVec.getLsbD_append, BitVec.extractLsb'_append_eq_of_le,
      BitVec.extractLsb'_append_eq_of_add_le]
  case err => cases s.err <;> rfl
  case phase => cases s.phase <;> rfl
  all_goals simp

/-- Settles O58: the literal assembles to the WR of its length and number, which stores them. -/
theorem loadLiteralHoldsItsVector : Obligations.LoadLiteralHoldsItsVector := by
  intro digits v hconv hlen hnum
  refine ⟨fun reg => htOf 1 (regIdx reg) (BitVec.ofNat 8 (4 * digits.length))
    (BitVec.ofNat 64 v.toNat), fun reg => ?_, fun s hb => ?_⟩
  · have hasm := asmLoadHex_ok (reg := reg) hconv hlen hnum
    rw [← BitVec.ofNat_toNat] at hasm
    exact ⟨hasm, hasm, decodeHt_write ..⟩
  · simp only [decodeHt_write]
    refine ⟨vecOf (BitVec.ofNat 8 (4 * digits.length)) (BitVec.ofNat 64 v.toNat), ?_,
      vecOf_toNat v hlen hnum, ?_⟩
    · rw [vecOf_len]
      exact Nat.mod_eq_of_lt hlen
    · exact ⟨exec_wr_store (x := .opa) hb nofun .., exec_wr_store (x := .opb) hb nofun ..,
        exec_wr_store (x := .key1) hb nofun .., exec_wr_store (x := .key2) hb nofun ..,
        exec_wr_store (x := .key3) hb nofun ..⟩

end Sys2Proof.Proofs
end

section
/-!
PROOFS. The frame of a register write and of a read (45_host_transfers.md R191, R192, R197, R199).
-/
namespace Sys2Proof.Machine

/-- R191: a write of a register leaves every other operand register and table entry as it was. -/
theorem storeReg_of_ne (len : LenTag) (data : Data) (s : State) (x : Reg) :
    (x ≠ .opa → (storeReg len data s x).opa = s.opa) ∧
    (x ≠ .opb → (storeReg len data s x).opb = s.opb) ∧
    (x ≠ .key1 → (storeReg len data s x).key1 = s.key1) ∧
    (x ≠ .key2 → (storeReg len data s x).key2 = s.key2) ∧
    (x ≠ .key3 → (storeReg len data s x).key3 = s.key3) ∧
    (x ≠ .tblLen → (storeReg len data s x).tblLen = s.tblLen) ∧
    ∀ j, x ≠ .tbl j → (storeReg len data s x).tbl[j] = s.tbl[j] := by
  cases x with
  | tbl i =>
    refine ⟨fun _ => rfl, fun _ => rfl, fun _ => rfl, fun _ => rfl, fun _ => rfl, fun _ => rfl,
      fun j hj => ?_⟩
    have hij : (i : Nat) ≠ j := fun h => hj (congrArg Reg.tbl (Fin.ext h))
    exact Vector.getElem_set_ne i.isLt j.isLt hij
  | _ => simp [storeReg]

/-- R57, R197: a read changes only what the host has received. -/
theorem execRd_frame {idx : RegIdx} {s t : State} (h : execRd idx s = .next t) :
    t = { s with received := t.received } := by
  obtain rfl | ⟨x, -, rfl⟩ := execRd_cases h <;> rfl

end Sys2Proof.Machine

namespace Sys2Proof.Proofs

open Sys2Proof.Machine

/-- Settles O20: a write that is not held stores in the register at its index, and in no other. -/
theorem transferFrame : Obligations.TransferFrame := by
  refine ⟨fun idx len data s t hidx h => ?_, fun idx s t h => execRd_frame h⟩
  obtain ⟨-, rfl⟩ | ⟨-, hcmd, -⟩ | ⟨-, x, hx, -, rfl⟩ := execWr_cases h
  · simp
  · exact absurd (regIdx_of_regAt idx .cmd hcmd).symm hidx
  · obtain rfl := regIdx_of_regAt idx x hx
    have named : ∀ y, regIdx x ≠ regIdx y → x ≠ y := fun _ => mt (congrArg regIdx)
    obtain ⟨hopa, hopb, h1, h2, h3, hlen, htbl⟩ := storeReg_of_ne len data s x
    exact ⟨storeReg_frame len data s x, fun h => hopa (named _ h), fun h => hopb (named _ h),
      fun h => h1 (named _ h), fun h => h2 (named _ h), fun h => h3 (named _ h),
      fun h => hlen (named _ h), fun j h => htbl j (named _ h)⟩

end Sys2Proof.Proofs
end

section
/-!
PROOFS. The round trips of the hexadecimal conversions (20_memory.md R63, R64, R66).
-/
namespace Sys2Proof.Machine

/-! ### One digit -/

/-- A digit of R64 has the number it was made of (R63). -/
theorem hexValue_hexDigit : ∀ d < 16, hexValue (hexDigit d) = some d := by decide

/-- The hex characters are among the first 103 codes (R63). -/
theorem toNat_lt_of_hexValue {c : Char} {d : Nat} (h : hexValue c = some d) : c.toNat < 103 := by
  unfold hexValue at h
  split_ifs at h <;> omega

/-- The number of a hex character is below 16, and its digit is the character in uppercase. -/
theorem hexDigit_of_hexValue {c : Char} {d : Nat} (h : hexValue c = some d) :
    d < 16 ∧ hexDigit d = c.toUpper := by
  have all : ∀ n < 103, ∀ d ∈ hexValue (Char.ofNat n),
      d < 16 ∧ hexDigit d = (Char.ofNat n).toUpper := by decide +kernel
  have hd := all c.toNat (toNat_lt_of_hexValue h) d
  rw [Char.ofNat_toNat] at hd
  exact hd h

/-! ### Four bits -/

theorem nibbleAt_lt {n : Nat} (v : BitVec n) (j : Nat) : nibbleAt v j < 16 := by
  have hbit := fun i => Bool.toNat_lt (idx v i)
  have := hbit j
  have := hbit (j + 1)
  have := hbit (j + 2)
  have := hbit (j + 3)
  unfold nibbleAt
  omega

/-- The most significant of the four bits is the first (R63). -/
theorem testBit_nibbleAt {n : Nat} (v : BitVec n) (j : Nat) {i : Nat} (h : i < 4) :
    (nibbleAt v j).testBit (3 - i) = idx v (j + i) := by
  have all : ∀ b0 b1 b2 b3 : Bool,
      let x := 8 * b0.toNat + 4 * b1.toNat + 2 * b2.toNat + b3.toNat
      x.testBit 3 = b0 ∧ x.testBit 2 = b1 ∧ x.testBit 1 = b2 ∧ x.testBit 0 = b3 := by decide
  obtain ⟨h0, h1, h2, h3⟩ := all (idx v j) (idx v (j + 1)) (idx v (j + 2)) (idx v (j + 3))
  match i, h with
  | 0, _ => exact h0
  | 1, _ => exact h1
  | 2, _ => exact h2
  | 3, _ => exact h3

/-- Four bits that are those of a number below 16 make that number. -/
theorem nibbleAt_eq {n j d : Nat} {v : BitVec n} (hd : d < 16)
    (h : ∀ i < 4, idx v (j + i) = d.testBit (3 - i)) : nibbleAt v j = d := by
  have all : ∀ d < 16, 8 * (d.testBit 3).toNat + 4 * (d.testBit 2).toNat +
      2 * (d.testBit 1).toNat + (d.testBit 0).toNat = d := by decide
  have h0 : idx v j = d.testBit 3 := h 0 (by decide)
  rw [nibbleAt, h0, h 1 (by decide), h 2 (by decide), h 3 (by decide)]
  exact all d hd

/-! ### The two conversions -/

/-- A vector whose length is a multiple of 4 is not padded (R64). -/
theorem bitsToHex_of_mod_eq_zero {n : Nat} (v : BitVec n) (h : n % 4 = 0) :
    bitsToHex v = (List.range (n / 4)).map fun k => hexDigit (nibbleAt v (4 * k)) := by
  have hpad : hexPad n = 0 := by simp [hexPad, h]
  rw [bitsToHex, hpad]
  simp

theorem length_bitsToHex {n : Nat} (v : BitVec n) :
    (bitsToHex v).length = (n + hexPad n) / 4 := by
  simp [bitsToHex]

theorem isSome_hexValue_of_mem_bitsToHex {n : Nat} {v : BitVec n} {c : Char}
    (h : c ∈ bitsToHex v) : (hexValue c).isSome = true := by
  obtain ⟨k, -, rfl⟩ := List.mem_map.mp h
  rw [hexValue_hexDigit _ (nibbleAt_lt ..)]
  rfl

/-- The vector that R63 reads from a string: bit j is of digit j / 4. -/
def hexBits (s : List Char) (width : Nat) : BitVec width :=
  ofIdx width fun j => ((hexValue (s.getD (j / 4) '0')).getD 0).testBit (3 - j % 4)

/-- R63: a string of hex digits of the right length converts. -/
theorem hexToBits_eq_ok {s : List Char} {width : Nat} (hlen : 4 * s.length = width)
    (h : ∀ c ∈ s, (hexValue c).isSome = true) : hexToBits s width = .ok (hexBits s width) := by
  rw [hexToBits, if_neg (not_not.mpr hlen), if_pos (List.all_eq_true.mpr h)]
  rfl

theorem hexToBits_eq_invalidHexLength {s : List Char} {width : Nat} (h : 4 * s.length ≠ width) :
    hexToBits s width = .error .invalidHexLength := if_pos h

/-- Digit k of a string is the four bits from index 4k on (R63). -/
theorem idx_hexBits {s : List Char} {width k i d : Nat} (hk : k < s.length) (hi : i < 4)
    (hlen : 4 * s.length = width) (hd : hexValue s[k] = some d) :
    idx (hexBits s width) (4 * k + i) = d.testBit (3 - i) := by
  have hj : 4 * k + i < width := by omega
  have hdiv : (4 * k + i) / 4 = k := by omega
  have hmod : (4 * k + i) % 4 = i := by omega
  rw [hexBits, idx_ofIdx, hdiv, hmod, List.getD_eq_getElem _ _ hk, hd]
  simp [hj]

/-- R66: converting a string and back puts it in uppercase. -/
theorem bitsToHex_hexBits {s : List Char} (h : ∀ c ∈ s, (hexValue c).isSome = true) :
    bitsToHex (hexBits s (4 * s.length)) = s.map Char.toUpper := by
  rw [bitsToHex_of_mod_eq_zero _ (Nat.mul_mod_right ..)]
  refine List.ext_getElem (by simp) fun k _ hk => ?_
  rw [List.length_map] at hk
  obtain ⟨d, hd⟩ := Option.isSome_iff_exists.mp (h s[k] (List.getElem_mem hk))
  obtain ⟨hlt, hupper⟩ := hexDigit_of_hexValue hd
  simp only [List.getElem_map, List.getElem_range]
  rw [nibbleAt_eq hlt fun i hi => idx_hexBits hk hi rfl hd, hupper]

/-- R66: converting a vector whose length is a multiple of 4 and back gives the vector. -/
theorem hexBits_bitsToHex {n : Nat} (v : BitVec n) (h : n % 4 = 0) :
    hexBits (bitsToHex v) n = v := by
  have hs := bitsToHex_of_mod_eq_zero v h
  have hlen : (bitsToHex v).length = n / 4 := by simp [hs]
  refine ext_idx fun j hj => ?_
  have hk : j / 4 < (bitsToHex v).length := by omega
  have hi : j % 4 < 4 := Nat.mod_lt _ (by decide)
  have hd : hexValue (bitsToHex v)[j / 4] = some (nibbleAt v (4 * (j / 4))) := by
    simp only [hs, List.getElem_map, List.getElem_range]
    exact hexValue_hexDigit _ (nibbleAt_lt ..)
  calc idx (hexBits (bitsToHex v) n) j
      = idx (hexBits (bitsToHex v) n) (4 * (j / 4) + j % 4) := by rw [Nat.div_add_mod]
    _ = (nibbleAt v (4 * (j / 4))).testBit (3 - j % 4) := idx_hexBits hk hi (by omega) hd
    _ = idx v j := by rw [testBit_nibbleAt v _ hi, Nat.div_add_mod]

end Sys2Proof.Machine

namespace Sys2Proof.Proofs

open Sys2Proof.Machine

/-- Settles O57: digit by digit, and by the number of digits where the vector had to be padded. -/
theorem hexRoundTrip : Obligations.HexRoundTrip := by
  refine ⟨fun s h => ⟨_, hexToBits_eq_ok rfl h, bitsToHex_hexBits h⟩, fun n v h => ?_,
    fun n v h => ?_⟩
  · have hlen : 4 * (bitsToHex v).length = n := by
      simp only [length_bitsToHex, hexPad, h]
      omega
    rw [hexToBits_eq_ok hlen fun _ => isSome_hexValue_of_mem_bitsToHex, hexBits_bitsToHex v h]
  · exact hexToBits_eq_invalidHexLength fun hlen => h (by omega)

end Sys2Proof.Proofs
end

section
/-!
PROOFS. A DES stage from Init to its output, and the run of the machine while a transaction is held
(43_des_engine.md R153 to R165; 45_host_transfers.md R195).
-/
namespace Sys2Proof.Machine

open Sys2Proof.Safety

/-! ### The sixteen rounds of a stage -/

section
variable {s t : State}

/-- One engine step by a rule (R17). -/
theorem EngineRule.engineRun_one (h : EngineRule s t) (hb : s.busy = true) :
    engineRun 1 s = .next t :=
  engineRun_succ (engineStep_iff.mpr ⟨hb, h⟩)

/-- RK holds the round key that round i = 1..16 uses (R27, R156). -/
theorem rkAt_roundKey (rk : Vector RoundKey 16) (d : Dir) {i : Nat} (h1 : 1 ≤ i) (h2 : i ≤ 16) :
    rkAt rk (rkIndex d i) = some (roundKey d rk i) := by
  obtain ⟨k, hk⟩ := rkAt_rkIndex rk d h1 h2
  rw [roundKey, hk, Option.getD_some]

/-- The state after the first i rounds of a stage, from its state after Init → Permuted (R161). -/
def afterRounds (i : Nat) (s : State) : State :=
  roundHalves (desHalves (stageDir s.cmd s.stage) s.rk (s.l, s.r) i) i s

/-- Round 1 follows the initial permutation (R161). -/
theorem engineRule_firstRound (hc : IsCipher s.cmd) (hp : s.phase = .permuted) (h0 : s.round = 0) :
    EngineRule s (afterRounds 1 s) := by
  have hr : s.round.toNat + 1 = 1 := by rw [h0]; rfl
  have hrule := EngineRule.round _ hc (.inl hp) (rkAt_roundKey s.rk (stageDir s.cmd s.stage)
    (Nat.le_add_left 1 s.round.toNat) (by omega))
  rwa [hr] at hrule

/-- Round i + 1 follows round i (R161). -/
theorem engineRule_nextRound {i : Nat} (hc : IsCipher s.cmd) (hi : i < 16) :
    EngineRule (afterRounds i s) (afterRounds (i + 1) s) := by
  have hr : (afterRounds i s).round.toNat = i := by
    rw [afterRounds, roundHalves_round, BitVec.toNat_ofNat]
    omega
  have hrule := EngineRule.round (s := afterRounds i s) _ hc (.inr ⟨rfl, hr.trans_lt hi⟩)
    (rkAt_roundKey s.rk (stageDir s.cmd s.stage) (Nat.le_add_left 1 _) (by omega))
  rwa [hr] at hrule

/-- The rounds of a stage one after the other (R161). -/
theorem engineRun_rounds (hb : s.busy = true) (hc : IsCipher s.cmd) (hp : s.phase = .permuted)
    (h0 : s.round = 0) {i : Nat} (hi : i < 16) :
    engineRun (i + 1) s = .next (afterRounds (i + 1) s) := by
  induction i with
  | zero => exact (engineRule_firstRound hc hp h0).engineRun_one hb
  | succ i ih =>
    rw [engineRun_add (ih (by omega))]
    exact (engineRule_nextRound hc hi).engineRun_one hb

/-! ### A stage -/

/-- The state after Init → Permuted with the given key (R160). -/
def afterPermuted (key : Block) (s : State) : State :=
  loadHalves (desStart s.blk) (storeSchedule (ksched key) s)

/-- The state at the pre-output of a stage with the given key, from its state at Init (R160 to
R162). -/
def stagePreOutput (key : Block) (s : State) : State :=
  formPreOutput (afterRounds 16 (afterPermuted key s))

/-- FP makes the stage's output of what BLK then holds (R155, R157). -/
theorem gather_stagePreOutput_blk (key : Block) (s : State) :
    gather 64 fpTable (stagePreOutput key s).blk = des s.blk key (stageDir s.cmd s.stage) := rfl

section
variable {k : KeySlot} (hb : s.busy = true) (hc : IsCipher s.cmd) (hp : s.phase = .init)
  (h0 : s.round = 0) (hk : stageKey s.cmd s.stage = some k) (hlen : (keyslot s k).len = 64)
include hb hc hp h0 hk hlen

/-- A stage reaches its pre-output in eighteen steps (R160 to R162). -/
theorem engineRun_stagePreOutput : engineRun 18 s = .next (stagePreOutput (keyslot s k).bits s) :=
  let p := afterPermuted (keyslot s k).bits s
  calc engineRun (1 + 17) s
      = engineRun (16 + 1) p :=
        engineRun_add ((EngineRule.permuted k hc hp hk hlen).engineRun_one hb)
    _ = engineRun 1 (afterRounds 16 p) :=
        engineRun_add (engineRun_rounds (s := p) hb hc rfl h0 (i := 15) (by decide))
    _ = .next (formPreOutput (afterRounds 16 p)) :=
        (EngineRule.swapped (s := afterRounds 16 p) hc rfl rfl).engineRun_one hb

/-- The last stage of a command takes nineteen steps, and RES holds its output (R163). -/
theorem engineRun_lastStage (hlast : s.stage = nstage s.cmd) :
    engineRun 19 s = .next (complete
      (vecReg (des s.blk (keyslot s k).bits (stageDir s.cmd s.stage)))
      (storeOutput (des s.blk (keyslot s k).bits (stageDir s.cmd s.stage))
        (stagePreOutput (keyslot s k).bits s))) := by
  rw [← gather_stagePreOutput_blk]
  exact (engineRun_add (n := 1) (engineRun_stagePreOutput hb hc hp h0 hk hlen)).trans
    ((EngineRule.result (s := stagePreOutput (keyslot s k).bits s) hc rfl hlast).engineRun_one hb)

end

end

/-! ### The machine's run while the next transaction is held -/

section
variable {w : CmdWord} {s s' t : State}

/-- A run of the machine is its first step and then the rest. -/
theorem core_run_succ {n : Nat} (h : step s = .next t) :
    Host.Core.run Sys2Proof.core (n + 1) s = Host.Core.run Sys2Proof.core n t := by
  have hs : Sys2Proof.core.step s = .next t := h
  simp only [Host.Core.run, hs]

/-- No rule takes from the host or answers it (R17). -/
theorem EngineRule.hostSide_eq (h : EngineRule s t) :
    t.inputs = s.inputs ∧ t.received = s.received := by
  cases h <;> exact ⟨rfl, rfl⟩

/-- A command's run does not look at the counters of the schedule. -/
theorem Alike.engineTurn (h : Alike w s s') : Alike w s (engineTurn s') :=
  ⟨h.cmd, h.sameControl, h.named.congr ⟨rfl, rfl, rfl, rfl, rfl, rfl, rfl⟩
    ⟨rfl, rfl, rfl, rfl, rfl, rfl, rfl⟩, h.res, h.blk, h.keys, h.halves⟩

/-- R195: while the head of the list is held, the machine takes the engine's steps and leaves the
host's side as it is. -/
theorem core_run_held {n : Nat} (m : Nat) (h : Alike w s s')
    (hheld : ∀ e rest, s'.inputs = e :: rest → anytime e = false) (ht : engineRun n s = .next t) :
    ∃ t', Host.Core.run Sys2Proof.core (n + m) s' = Host.Core.run Sys2Proof.core m t' ∧
      Alike w t t' ∧ t'.inputs = s'.inputs ∧ t'.received = s'.received := by
  induction n generalizing s s' with
  | zero =>
    obtain rfl : s = t := by simpa [engineRun] using ht
    exact ⟨s', by rw [Nat.zero_add], h, rfl, rfl⟩
  | succ n ih =>
    cases hs : engineStep s with
    | next u =>
      obtain ⟨hb, hr⟩ := engineStep_iff.mp hs
      obtain ⟨u', hr', hu⟩ := hr.alike h.engineTurn
      obtain ⟨hin, hrec⟩ := hr'.hostSide_eq
      have hb' : s'.busy = true := (control_eq_iff.mp h.sameControl).2.1.trans hb
      have hstep : step s' = .next u' :=
        (step_of_engine (nextMove_held hb' hheld)).trans (engineStep_iff.mpr ⟨hb', hr'⟩)
      rw [engineRun_succ hs] at ht
      obtain ⟨t', hrun, halike, hin', hrec'⟩ := ih hu (hin ▸ hheld) ht
      rw [Nat.add_right_comm, core_run_succ hstep]
      exact ⟨t', hrun, halike, hin'.trans hin, hrec'.trans hrec⟩
    | fault f => simp [engineRun, hs] at ht
    | refused x => simp [engineRun, hs] at ht

end

/-! ### DES.ENC and a read of RES -/

/-- The fields of the command word of DES.ENC (R76, R80). -/
theorem fields_of_encode_desEnc {k : KeySlot} {w : CmdWord} (h : encode (.desEnc k) = .cw w) :
    cwOp w = 4 ∧ cwDir w = 0 ∧ kselSlot (cwKsel w) = some k := by
  simp only [encode, Encoding.cw.injEq] at h
  obtain ⟨hop, hdir, -, hksel, -, -⟩ := fields_cwOf 4 0 0 (slotKsel k) 0
  subst h
  rw [hop, hdir, hksel]
  exact ⟨rfl, rfl, by cases k <;> rfl⟩

/-- R197: with BUSY = 0 a read of RES answers RES. -/
theorem exec_readRes {s : State} (hb : s.busy = false) :
    exec (.rd 0x07) s = .next (respond s ⟨s.res.len, s.res.bits⟩) := whenFree_free hb _

/-- R165: DES.ENC with valid operands is accepted, and nineteen engine steps leave its result in
RES. -/
theorem desEnc_runs {s : State} {k : KeySlot} {w : CmdWord} (hw : encode (.desEnc k) = .cw w)
    (hb : s.busy = false) (hopa : s.opa.len = 64) (hkey : (keyslot s k).len = 64) :
    exec (.desEnc k) s = .next (acceptBlock (takeWord w s)) ∧
    ∃ v, engineRun 19 (acceptBlock (takeWord w s)) = .next v ∧ v.busy = false ∧
      v.resValid = true ∧ v.res = ⟨64, des s.opa.bits (keyslot s k).bits .encrypt⟩ := by
  obtain ⟨hop, hdir, hslot⟩ := fields_of_encode_desEnc hw
  have hc : IsCipher w := .inl hop
  have hvalid : checksOf (.desEnc k) (takeWord w s) = none :=
    (checksOf_takeWord ..).trans (validateDes_eq_none.mpr ⟨hopa, hkey⟩)
  have hslot_u : keyslot (acceptBlock (takeWord w s)) k = keyslot s k :=
    keyslot_congr ⟨rfl, rfl, rfl, rfl, rfl, rfl, rfl⟩ k
  have hstage : stageKey w 1 = some k := by simp [stageKey, hop, hslot]
  have hsdir : stageDir w 1 = .encrypt := by simp [stageDir, dirOf, hop, hdir]
  have hrun := engineRun_lastStage (s := acceptBlock (takeWord w s)) rfl hc rfl rfl hstage
    (hslot_u ▸ hkey) (nstage_des hop).symm
  refine ⟨?_, _, hrun, rfl, rfl, ?_⟩
  · rw [exec_eq_command hw, command_accepted hb hvalid, acceptanceOf_cipher hc]
  · rw [complete_res, hslot_u, acceptBlock_blk, takeWord_opa, acceptBlock_cmd, takeWord_cmd,
      acceptBlock_stage, hsdir, vecReg, BitVec.setWidth_eq]
    rfl

/-- R195, R165: where the transaction after DES.ENC is held, twenty steps complete the command and
leave that transaction next. -/
theorem core_run_desEnc {s : State} {k : KeySlot} {rest : List HostEvent} (m : Nat)
    (hb : s.busy = false) (hopa : s.opa.len = 64) (hkey : (keyslot s k).len = 64)
    (hin : s.inputs = .xfer (transactionOf (.desEnc k)) :: rest)
    (hheld : ∀ e tail, rest = e :: tail → anytime e = false) :
    ∃ t, Host.Core.run Sys2Proof.core (20 + m) s = Host.Core.run Sys2Proof.core m t ∧
      t.busy = false ∧ t.inputs = rest ∧ t.received = s.received ∧
      t.res = ⟨64, des s.opa.bits (keyslot s k).bits .encrypt⟩ := by
  obtain ⟨w, hw⟩ : ∃ w, encode (.desEnc k) = .cw w := ⟨_, rfl⟩
  have hslot : keyslot { s with inputs := rest } k = keyslot s k :=
    keyslot_congr ⟨rfl, rfl, rfl, rfl, rfl, rfl, rfl⟩ k
  obtain ⟨hacc, v, hrun, hvb, hvv, hvres⟩ :=
    desEnc_runs (s := { s with inputs := rest }) hw hb hopa (hslot ▸ hkey)
  have hstart := (step_of_host (nextMove_free hb hin)).trans
    ((exec_decodeHt_transactionOf ..).trans hacc)
  have halike := alike_accepted (s := { s with inputs := rest }) hw ⟨rfl, rfl⟩
  rw [acceptanceOf_cipher (.inl (fields_of_encode_desEnc hw).1)] at halike
  obtain ⟨t, htrun, hend, htin, htrec⟩ := core_run_held m halike hheld hrun
  obtain ⟨-, hbusy, -⟩ := control_eq_iff.mp hend.sameControl
  have hrun₂₀ : Host.Core.run Sys2Proof.core (20 + m) s = Host.Core.run Sys2Proof.core m t := by
    rw [Nat.succ_add, core_run_succ hstart, htrun]
  exact ⟨t, hrun₂₀, hbusy.trans hvb, htin, htrec, by rw [hend.res hvv, hvres, hslot]⟩

end Sys2Proof.Machine

namespace Sys2Proof.Proofs

open Sys2Proof.Machine

/-- Settles O32: the read of RES is held while the command is carried out, and then answered. -/
theorem readAfterDesReturnsItsResult : Obligations.ReadAfterDesReturnsItsResult := by
  intro s k rest hb hopa hkey hin
  have hheld : anytime (.xfer (transactionOf (.rd 0x07))) = false := by decide
  obtain ⟨t, hrun, htb, htin, htrec, htres⟩ := core_run_desEnc 1 hb hopa hkey hin
    fun e tail he => (List.cons.inj he).1 ▸ hheld
  have hread : step t = .next (respond { t with inputs := rest } ⟨t.res.len, t.res.bits⟩) :=
    (stepRunsTheHostTransaction.2 t _ rest htb htin).trans (exec_readRes htb)
  refine ⟨respond { t with inputs := rest } ⟨t.res.len, t.res.bits⟩,
    hrun.trans (core_run_succ (n := 0) hread), rfl, ?_⟩
  rw [respond_received, htres, htrec]

end Sys2Proof.Proofs
end

section
/-!
PROOFS. The encoding (30_encoding.md R80, R81, R84, R86): what the decoder makes of an encoded
instruction, of a command word, and of a word of the opcode table.
-/
namespace Sys2Proof.Machine

/-- The decoder answers no instruction (R81). -/
def Rejects (x : Except Reject Instr) : Prop := ∀ i, x ≠ .ok i

@[simp] theorem rejects_error (e : Reject) : Rejects (.error e) := nofun

@[simp] theorem not_rejects_ok (i : Instr) : ¬ Rejects (.ok i) := fun h => h i rfl

@[simp] theorem rejects_ite_error {c : Prop} [Decidable c] (e : Reject) (x : Except Reject Instr) :
    Rejects (if c then .error e else x) ↔ c ∨ Rejects x := by
  split <;> simp [*]

theorem kselSlot_eq_none_iff : ∀ k : BitVec 2, kselSlot k = none ↔ k = 3 := by decide

theorem tselTable_eq_none_iff : ∀ t : BitVec 3, tselTable t = none ↔ t = 7 := by decide

section
variable {w : CmdWord}

theorem rejects_of_zero (hz : cwZero w ≠ 0) : Rejects (decodeCommand w) := by
  rw [decodeCommand, if_pos hz]
  exact rejects_error _

theorem rejects_perm_iff (hz : cwZero w = 0) (ho : cwOp w = 1) : Rejects (decodeCommand w) ↔
    (cwDir w ≠ 0 ∨ cwK3en w ≠ 0 ∨ cwKsel w ≠ 0) ∨ cwTsel w = 7 := by
  rw [← tselTable_eq_none_iff]
  cases ht : tselTable (cwTsel w) <;> simp [decodeCommand, hz, ho, ht]

theorem rejects_ksched_iff (hz : cwZero w = 0) (ho : cwOp w = 2) : Rejects (decodeCommand w) ↔
    (cwDir w ≠ 0 ∨ cwK3en w ≠ 0 ∨ cwTsel w ≠ 0) ∨ cwKsel w = 3 := by
  rw [← kselSlot_eq_none_iff]
  cases hk : kselSlot (cwKsel w) <;> simp [decodeCommand, hz, ho, hk]

theorem rejects_feistel_iff (hz : cwZero w = 0) (ho : cwOp w = 3) : Rejects (decodeCommand w) ↔
    cwDir w ≠ 0 ∨ cwK3en w ≠ 0 ∨ cwKsel w ≠ 0 ∨ cwTsel w ≠ 0 := by
  simp [decodeCommand, hz, ho]

theorem rejects_des_iff (hz : cwZero w = 0) (ho : cwOp w = 4) : Rejects (decodeCommand w) ↔
    (cwK3en w ≠ 0 ∨ cwTsel w ≠ 0) ∨ cwKsel w = 3 := by
  rw [← kselSlot_eq_none_iff]
  cases hk : kselSlot (cwKsel w) <;> simp [decodeCommand, hz, ho, hk]

theorem rejects_tdes_iff (hz : cwZero w = 0) (ho : cwOp w = 5) : Rejects (decodeCommand w) ↔
    cwKsel w ≠ 0 ∨ cwTsel w ≠ 0 := by
  simp [decodeCommand, hz, ho]

theorem rejects_of_reservedOp (ho : cwOp w = 0 ∨ 6 ≤ (cwOp w).toNat) :
    Rejects (decodeCommand w) := by
  unfold decodeCommand
  rw [rejects_ite_error]
  refine .inr ?_
  split
  case h_6 => exact rejects_error _
  all_goals
    rename_i hop
    rcases ho with ho | ho
    · simp [ho] at hop
    · omega

/-- R84: the words that decode to Illegal. -/
theorem rejects_decodeCommand_iff : Rejects (decodeCommand w) ↔
    (cwZero w ≠ 0 ∨ cwOp w = 0 ∨ 6 ≤ (cwOp w).toNat ∨ cwKsel w = 3 ∨ cwTsel w = 7 ∨
      (cwDir w ≠ 0 ∧ cwOp w ∈ [1#4, 2#4, 3#4]) ∨ (cwK3en w ≠ 0 ∧ cwOp w ≠ 5) ∨
      (cwKsel w ≠ 0 ∧ cwOp w ∈ [1#4, 3#4, 5#4]) ∨ (cwTsel w ≠ 0 ∧ cwOp w ≠ 1)) := by
  have ops : ∀ op : BitVec 4, op = 1 ∨ op = 2 ∨ op = 3 ∨ op = 4 ∨ op = 5 ∨
    (op = 0 ∨ 6 ≤ op.toNat) := by decide
  by_cases hz : cwZero w = 0
  case neg => exact iff_of_true (rejects_of_zero hz) (.inl hz)
  rcases ops (cwOp w) with ho | ho | ho | ho | ho | ho
  · rw [rejects_perm_iff hz ho]
    grind
  · rw [rejects_ksched_iff hz ho]
    grind
  · rw [rejects_feistel_iff hz ho]
    grind
  · rw [rejects_des_iff hz ho]
    grind
  · rw [rejects_tdes_iff hz ho]
    grind
  · exact iff_of_true (rejects_of_reservedOp ho) (.inr (by tauto))

/-- R80, R81: a word decodes to the one instruction whose command word it is. -/
theorem decodeCommand_eq_ok_iff {i : Instr} : decodeCommand w = .ok i ↔ encode i = .cw w :=
  ⟨encode_of_decodeCommand, decodeCommand_of_encode⟩

end

/-- R84, R194, R213: with BUSY = 0 a WR of CMD with an Illegal word raises IllegalCommand. -/
theorem exec_wr_illegal {s : State} {data : Data} (hb : s.busy = false)
    (hw : Rejects (decodeCommand (data.setWidth 32))) (len : LenTag) :
    exec (.wr 0x00 len data) s =
      .next (raise .illegalCommand (takeWord (data.setWidth 32) s)) := by
  have hwr : exec (.wr 0x00 len data) s = writeCmd data s := whenFree_free hb _
  rw [hwr, writeCmd]
  split
  · exact absurd ‹_› (hw _)
  · exact command_refused hb rfl

/-- An encoded instruction decodes to itself (R80, R86). -/
theorem decode_encode (i : Instr) : decode (encode i) = .ok i := by
  cases he : encode i with
  | cw w => exact decodeCommand_of_encode he
  | ht w =>
    cases i <;> simp only [encode, Encoding.ht.injEq, reduceCtorEq] at he <;> subst he
    case wr idx len data => exact congrArg _ (decodeHt_write ..)
    case rd idx => exact congrArg _ (decodeHt_read ..)

/-- A word of the opcode table in the form of an instruction's encoding is that instruction (R75). -/
theorem decodeTableWord_of_encode {nbits n : Nat} {i : Instr}
    (h : tableEncoding nbits n = some (encode i)) : decodeTableWord nbits n = some i := by
  simp only [decodeTableWord, h, decode_encode]
  rfl

end Sys2Proof.Machine

namespace Sys2Proof.Proofs

open Sys2Proof.Machine

/-- Settles O1: a command by its word's fields, a transaction by its fields. -/
theorem encodeThenDecodeIsIdentity : Obligations.EncodeThenDecodeIsIdentity := decode_encode

/-- Settles O2: the listed words are those the encoder gives the commands. -/
theorem legalCommandWords : Obligations.LegalCommandWords := by
  intro w i
  rw [decodeCommand_eq_ok_iff]
  refine ⟨fun h => ?_, fun h => (?_ : ∀ p ∈ _, encode p.2 = .cw p.1) (w, i) h⟩
  · cases i <;> simp only [encode, Encoding.cw.injEq, reduceCtorEq] at h <;> subst h
    case ksched k => cases k <;> decide
    case desEnc k => cases k <;> decide
    case desDec k => cases k <;> decide
    all_goals decide
  · decide

/-- Settles O3: the Illegal words operation by operation; the WR of one fails its validation. -/
theorem illegalWordIsStoredAndRefused : Obligations.IllegalWordIsStoredAndRefused :=
  ⟨fun _ => rejects_decodeCommand_iff, fun _ len _ hb hw => exec_wr_illegal hb hw len⟩

/-- Settles O5. -/
theorem mnemonicIsWriteOfCommandWord : Obligations.MnemonicIsWriteOfCommandWord :=
  fun _ _ s len _ he hd => exec_wr_cmd s len he hd

/-- Settles O4: each word but 0x0C4 is the encoding of its instruction; 0x0C4 has KSEL = 3. -/
theorem specWordsDecode : Obligations.SpecWordsDecode := by
  have hksel : decodeTableWord 32 0xC4 = none := by decide
  exact ⟨decodeTableWord_of_encode rfl, decodeTableWord_of_encode rfl,
    decodeTableWord_of_encode rfl, decodeTableWord_of_encode rfl, decodeTableWord_of_encode rfl,
    hksel, decodeTableWord_of_encode rfl, decodeTableWord_of_encode rfl⟩

end Sys2Proof.Proofs
end

section
/-!
PROOFS. `permute` and the tables: its contract, its linearity, and that IP and FP undo each other
(40_permutation_engine.md R100, R108); PC1 leaves out the parity positions (41_key_schedule.md R124).
-/
namespace Sys2Proof.Machine

/-- A table fails the check of R100 exactly when some entry is below 1 or above the input length. -/
theorem tableFits_eq_false_iff (t : Table) (n : Nat) :
    tableFits t n = false ↔ ∃ k ∈ t, k < 1 ∨ n < k := by
  rw [← Bool.not_eq_true, tableFits_iff]
  push Not
  exact exists_congr fun k => and_congr_right fun _ => by omega

/-- What `permute` answers comes from a table in range, and is the gathered vector (R100). -/
theorem permute_eq_ok_iff {n : Nat} {v : BitVec n} {t : Table} {x : BitVec t.length} :
    permute v t = .ok x ↔ tableFits t n = true ∧ gather t.length t v = x := by
  cases h : tableFits t n with
  | true => simp [permute_eq_ok h]
  | false => simp [permute_eq_error h]

/-- R108 (a): each output bit is one input bit, so `gather` goes through xor. -/
theorem gather_xor {n : Nat} (m : Nat) (t : Table) (a b : BitVec n) :
    gather m t (a ^^^ b) = gather m t a ^^^ gather m t b :=
  BitVec.eq_of_getMsbD_eq fun j hj => by
    simp only [BitVec.getMsbD_xor, getMsbD_gather t _ hj]

/-- The output depends only on the input bits at the positions the table names. -/
theorem gather_congr {n m : Nat} {t : Table} {a b : BitVec n} (hm : m ≤ t.length)
    (h : ∀ k ∈ t, pos a k = pos b k) : gather m t a = gather m t b := by
  refine ext_idx fun j hj => ?_
  have hlt : j < t.length := hj.trans_le hm
  have hpos := h t[j] (List.getElem_mem hlt)
  simp only [idx_gather, List.getD_eq_getElem _ _ hlt, hpos]

/-- The table t undoes the table u on vectors of n bits: what t reads at index j, u has put there from
index j. -/
def Undoes (n : Nat) (t u : Table) : Prop :=
  ∀ j < n, t.getD j 0 - 1 < n ∧ u.getD (t.getD j 0 - 1) 0 - 1 = j

theorem Undoes.gather_gather {n : Nat} {t u : Table} (h : Undoes n t u) (v : BitVec n) :
    gather n t (gather n u v) = v :=
  BitVec.eq_of_getMsbD_eq fun j hj => by
    obtain ⟨hlt, hinv⟩ := h j hj
    rw [getMsbD_gather t _ hj, getMsbD_gather u _ hlt, hinv]

/-- FP undoes IP (R103). -/
theorem undoes_fp_ip : Undoes 64 fpTable ipTable := by
  unfold Undoes
  decide +kernel

/-- IP undoes FP (R103). -/
theorem undoes_ip_fp : Undoes 64 ipTable fpTable := by
  unfold Undoes
  decide +kernel

/-- PC1 reads positions 1 to 64, and none that is a multiple of 8 (R106). -/
theorem pc1Table_not_parity : ∀ k ∈ pc1Table, 1 ≤ k ∧ k ≤ 64 ∧ k % 8 ≠ 0 := by decide

/-- The round keys depend on the key only through PC1 of it (R121 to R123). -/
theorem ksched_congr {a b : Block} (h : gather 56 pc1Table a = gather 56 pc1Table b) :
    ksched a = ksched b := by
  have hc : keyC a = keyC b := by rw [keyC, keyC, h]
  have hd : keyD a = keyD b := by rw [keyD, keyD, h]
  refine Vector.ext fun i hi => ?_
  have ha := ksched_getElem a ⟨i, hi⟩
  rw [hc, hd] at ha
  exact ha.trans (ksched_getElem b ⟨i, hi⟩).symm

end Sys2Proof.Machine

namespace Sys2Proof.Proofs

open Sys2Proof.Machine

/-- Settles O46: an entry out of range fails the check; else the output is read bit by bit. -/
theorem permuteContract : Obligations.PermuteContract := by
  intro n v t
  refine ⟨fun hbad => permute_eq_error ((tableFits_eq_false_iff t n).mpr hbad), fun hfit => ?_⟩
  refine ⟨_, permute_eq_ok ((tableFits_iff t n).mpr hfit), fun i hi => ?_⟩
  rw [getMsbD_gather t v hi, List.getD_eq_getElem _ _ hi]

/-- Settles O47: the same table is in range for the xor, and gathering goes through it. -/
theorem permuteIsLinear : Obligations.PermuteIsLinear := by
  intro n a b t x y ha hb
  obtain ⟨hfit, rfl⟩ := permute_eq_ok_iff.mp ha
  obtain ⟨-, rfl⟩ := permute_eq_ok_iff.mp hb
  exact permute_eq_ok_iff.mpr ⟨hfit, gather_xor ..⟩

/-- Settles O48: each of the two tables undoes the other. -/
theorem finalPermutationInvertsInitial : Obligations.FinalPermutationInvertsInitial :=
  fun v => ⟨undoes_fp_ip.gather_gather v, undoes_ip_fp.gather_gather v⟩

/-- Settles O50: PC1 of the two keys is the same, since it reads no parity position. -/
theorem keyScheduleIgnoresParity : Obligations.KeyScheduleIgnoresParity := by
  intro a b h
  refine ksched_congr (gather_congr le_rfl fun k hk => ?_)
  obtain ⟨h1, h64, h8⟩ := pc1Table_not_parity k hk
  exact h k h1 h64 h8

end Sys2Proof.Proofs
end

section
/-!
PROOFS. The frame of an engine step, by the operation in CMD (40_permutation_engine.md R110;
41_key_schedule.md R128; 42_feistel.md R144; 43_des_engine.md R158; 44_tdes_composer.md R178).
-/
namespace Sys2Proof.Machine

open Sys2Proof.Safety

section
variable {s t : State}

/-- R110, R144: the rules of PERM and FEISTEL complete the command with a result. -/
theorem EngineRule.frame_result (h : EngineRule s t) (ho : cwOp s.cmd = 1 ∨ cwOp s.cmd = 3) :
    t = { s with res := t.res, resValid := t.resValid, phase := t.phase, busy := t.busy } := by
  have hcipher : ¬ IsCipher s.cmd := by rcases ho with ho | ho <;> simp [IsCipher, ho]
  cases h with
  | perm | feistel => rfl
  | ksched k op => simp [op] at ho
  | nextStage op => exact absurd (.inr op) hcipher
  | permuted | round | swapped | output | result => exact absurd ‹IsCipher s.cmd› hcipher

/-- R128: the rule of KSCHED leaves RES and RES_VALID as they were. -/
theorem EngineRule.frame_ksched (h : EngineRule s t) (ho : cwOp s.cmd = 2) :
    t = { s with rk := t.rk, rkValid := t.rkValid, phase := t.phase, busy := t.busy } := by
  have hcipher : ¬ IsCipher s.cmd := by simp [IsCipher, ho]
  cases h with
  | ksched => rfl
  | perm x op | feistel op => simp [op] at ho
  | nextStage op => exact absurd (.inr op) hcipher
  | permuted | round | swapped | output | result => exact absurd ‹IsCipher s.cmd› hcipher

/-- R33, R247: no rule, whatever the operation, writes any other field. -/
theorem EngineRule.frame (h : EngineRule s t) :
    t = { s with rk := t.rk, rkValid := t.rkValid, l := t.l, r := t.r, blk := t.blk, res := t.res,
                 resValid := t.resValid, phase := t.phase, round := t.round, stage := t.stage,
                 busy := t.busy } := by
  cases h <;> rfl

end

end Sys2Proof.Machine

namespace Sys2Proof.Proofs

open Sys2Proof.Machine

/-- Settles O33: the step is by a rule, and each rule keeps to the fields of its operation. -/
theorem engineStepFrame : Obligations.EngineStepFrame := by
  intro s t h
  obtain ⟨-, hrule⟩ := engineStep_iff.mp h
  exact ⟨hrule.frame_result, hrule.frame_ksched, fun _ => hrule.frame⟩

end Sys2Proof.Proofs
end

section
/-!
PROOFS. A command in a free engine is refused or accepted as its validation says; the validation of the
seven PERM commands (40_permutation_engine.md R109; 45_host_transfers.md R194; 60_exceptions.md R213),
and every command in the reset state (70_reset_and_hazards.md R242).
-/
namespace Sys2Proof.Machine

open Sys2Proof.Safety

section
variable {i : Instr} {w : CmdWord} {s : State}

/-- R213: a command whose validation fails is refused with its code. -/
theorem exec_refused {e : ErrCode} (hw : encode i = .cw w) (hb : s.busy = false)
    (hv : checksOf i s = some e) : exec i s = .next (refusedState w e s) := by
  rw [exec_eq_command hw, command_refused hb ((checksOf_takeWord i w s).trans hv)]
  rfl

/-- R194: a command that is not DES or TDES and whose validation passes is accepted in STAGE 0, with
BLK as it was. -/
theorem exec_accepted_single (hw : encode i = .cw w) (hc : ¬ IsCipher w) (hb : s.busy = false)
    (hv : checksOf i s = none) : exec i s = .next (acceptedState w 0 s.blk s) := by
  rw [exec_eq_command hw, command_accepted hb ((checksOf_takeWord i w s).trans hv),
    acceptanceOf_single hc]
  rfl

/-! ### PERM -/

/-- An entry of the custom table is one of the first TBL_LEN entries of TBL (R79). -/
theorem mem_tableOf_custom {k : Nat} : k ∈ tableOf s .custom ↔
    ∃ j : Fin 64, j.val < s.tblLen.toNat ∧ s.tbl[j].toNat = k := by
  simp only [tableOf, List.mem_map, List.mem_take_iff_getElem, Vector.length_toList,
    Vector.getElem_toList]
  constructor
  · rintro ⟨-, ⟨j, hj, rfl⟩, rfl⟩
    obtain ⟨hlen, h64⟩ := lt_min_iff.mp hj
    exact ⟨⟨j, h64⟩, hlen, rfl⟩
  · rintro ⟨j, hj, rfl⟩
    exact ⟨_, ⟨j, by omega, rfl⟩, rfl⟩

/-- The custom table has an entry out of range exactly when one of the first TBL_LEN entries of TBL
is. -/
theorem exists_bad_entry_custom {n : Nat} : (∃ k ∈ tableOf s .custom, k < 1 ∨ n < k) ↔
    ∃ j : Fin 64, j.val < s.tblLen.toNat ∧ (s.tbl[j].toNat < 1 ∨ n < s.tbl[j].toNat) := by
  simp only [mem_tableOf_custom]
  exact ⟨fun ⟨_, ⟨j, hj, hk⟩, hbad⟩ => ⟨j, hj, hk ▸ hbad⟩,
    fun ⟨j, hj, hbad⟩ => ⟨_, ⟨j, hj, rfl⟩, hbad⟩⟩

/-- R109 with the check of the entries written out. -/
theorem validatePerm_eq (x : TableSel) (s : State) : validatePerm x s =
    if x = .custom ∧ 64 < s.tblLen.toNat then some .illegalCommand
    else if 64 < s.opa.len.toNat then some .invalidBlockLength
    else if ∃ k ∈ tableOf s x, k < 1 ∨ s.opa.len.toNat < k then some .invalidTableIndex
    else none := by
  simp only [validatePerm, ← tableFits_eq_false_iff]
  cases tableFits (tableOf s x) s.opa.len.toNat <;> rfl

/-- R109: what a PERM command answers, its checks in order. -/
theorem exec_perm {x : TableSel} (hw : encode i = .cw w) (hop : cwOp w = 1)
    (hx : checksOf i = validatePerm x) (hb : s.busy = false) : exec i s = .next (
      if x = .custom ∧ 64 < s.tblLen.toNat then refusedState w .illegalCommand s
      else if 64 < s.opa.len.toNat then refusedState w .invalidBlockLength s
      else if ∃ k ∈ tableOf s x, k < 1 ∨ s.opa.len.toNat < k then
        refusedState w .invalidTableIndex s
      else acceptedState w 0 s.blk s) := by
  have hc : ¬ IsCipher w := by simp [IsCipher, hop]
  have hv := (congrFun hx s).trans (validatePerm_eq x s)
  split_ifs at hv ⊢
  · exact exec_refused hw hb hv
  · exact exec_refused hw hb hv
  · exact exec_refused hw hb hv
  · exact exec_accepted_single hw hc hb hv

/-- R109 for a ROM table. -/
theorem permChecks_rom {x : TableSel} {t : Table} (hw : encode i = .cw w) (hop : cwOp w = 1)
    (hx : checksOf i = validatePerm x) (hrom : x ≠ .custom) (ht : ∀ s, tableOf s x = t) :
    PermChecks i w t := by
  intro s hb
  have h := exec_perm hw hop hx hb
  rwa [if_neg fun h => hrom h.1, ht] at h

end

/-- Every command in the reset state whose validation fails there is refused with its code. -/
theorem exec_reset_refused {i : Instr} {e : ErrCode}
    (h : encode i = .cw (wordOf i) ∧ checksOf i State.reset = some e) :
    exec i State.reset = .next (refusedState (wordOf i) e State.reset) :=
  exec_refused h.1 rfl h.2

end Sys2Proof.Machine

namespace Sys2Proof.Proofs

open Sys2Proof.Machine Sys2Proof.Safety

/-- Settles O21: only PERM.CUSTOM checks TBL_LEN, and its table is the first entries of TBL. -/
theorem permValidation : Obligations.PermValidation := by
  refine ⟨fun s hb => ?_, permChecks_rom (x := .ip) rfl rfl rfl nofun fun _ => rfl,
    permChecks_rom (x := .fp) rfl rfl rfl nofun fun _ => rfl,
    permChecks_rom (x := .e) rfl rfl rfl nofun fun _ => rfl,
    permChecks_rom (x := .p) rfl rfl rfl nofun fun _ => rfl,
    permChecks_rom (x := .pc1) rfl rfl rfl nofun fun _ => rfl,
    permChecks_rom (x := .pc2) rfl rfl rfl nofun fun _ => rfl⟩
  have h := exec_perm (w := 0x001) (x := .custom) (i := .permCustom) rfl rfl rfl hb
  simpa only [true_and, exists_bad_entry_custom] using h

/-- Settles O45: each validation but that of PERM.CUSTOM fails in the reset state; the custom table is
empty there. -/
theorem nothingSucceedsFromResetButEmptyPerm :
    Obligations.NothingSucceedsFromResetButEmptyPerm := by
  refine ⟨fun i hi => exec_reset_refused ?_, fun k => exec_reset_refused ?_,
    fun i hi => exec_reset_refused ?_, ?_⟩
  · revert i
    decide
  · cases k <;> decide
  · revert i
    decide
  · have hrule := EngineRule.perm (s := acceptedState 0x001 0 0 State.reset) .custom rfl rfl rfl rfl
    exact ⟨_, exec_accepted_single (i := .permCustom) rfl (by decide) rfl rfl,
      completesIn_one rfl (engineStep_iff.mpr ⟨rfl, hrule⟩) rfl⟩

end Sys2Proof.Proofs
end

section
/-!
PROOFS. The validation of KSCHED, and the rotations of a whole schedule (41_key_schedule.md R122, R124,
R127).
-/
namespace Sys2Proof.Machine

open Sys2Proof.Safety

/-- R127: what a KSCHED command answers. -/
theorem exec_ksched {k : KeySlot} {w : CmdWord} {s : State} (hw : encode (.ksched k) = .cw w)
    (hb : s.busy = false) : exec (.ksched k) s = .next (
      if (keyslot s k).len ≠ 64 then refusedState w .invalidKeyLength s
      else acceptedState w 0 s.blk s) := by
  split_ifs with hlen
  · exact exec_refused hw hb (if_pos hlen)
  · have hc : ¬ IsCipher w := by simp [IsCipher, (fields_of_encode_ksched hw).1]
    exact exec_accepted_single hw hc hb (if_neg hlen)

/-- Rotating by several amounts in turn moves the bits by their sum (R122). -/
theorem getMsbD_foldl_rotl (as : List Nat) (c : KeyHalf) {j : Nat} (h : j < 28) :
    (as.foldl rotl c).getMsbD j = c.getMsbD ((j + as.sum) % 28) := by
  induction as generalizing c with
  | nil => simp [Nat.mod_eq_of_lt h]
  | cons a as ih =>
    have hlt : (j + as.sum) % 28 < 28 := Nat.mod_lt _ (by decide)
    rw [List.foldl_cons, ih, getMsbD_rotl c a hlt, Nat.mod_add_mod, List.sum_cons, Nat.add_assoc,
      Nat.add_comm as.sum a]

/-- R124: rotations whose amounts add up to the width of a half give the half back. -/
theorem foldl_rotl_eq_self {as : List Nat} (h : as.sum = 28) (c : KeyHalf) :
    as.foldl rotl c = c := by
  refine BitVec.eq_of_getMsbD_eq fun j hj => ?_
  rw [getMsbD_foldl_rotl as c hj, h, Nat.add_mod_right, Nat.mod_eq_of_lt hj]

end Sys2Proof.Machine

namespace Sys2Proof.Proofs

open Sys2Proof.Machine Sys2Proof.Safety

/-- Settles O49: the sixteen amounts of SHIFTS add up to 28. -/
theorem rotationsReturnToStart : Obligations.RotationsReturnToStart :=
  foldl_rotl_eq_self (by decide)

/-- Settles O22: KSCHED checks its key slot only, whichever of the three it names. -/
theorem keyScheduleValidation : Obligations.KeyScheduleValidation := fun _ hb =>
  ⟨exec_ksched (k := .k1) rfl hb, exec_ksched (k := .k2) rfl hb, exec_ksched (k := .k3) rfl hb⟩

end Sys2Proof.Proofs
end

section
/-!
PROOFS. The round function bit by bit, FEISTEL's validation, and FEISTEL carried out (42_feistel.md
R136 to R140, R143, R144).
-/
namespace Sys2Proof.Machine

open Sys2Proof.Safety

/-! ### The S-box layer -/

/-- What holds of every element of a list and of the default holds of what `getD` reads. -/
theorem getD_of_forall_mem {α : Type} {p : α → Prop} {l : List α} {d : α} (hl : ∀ a ∈ l, p a)
    (hd : p d) (i : Nat) : p (l.getD i d) := by
  by_cases hi : i < l.length
  · rw [List.getD_eq_getElem _ _ hi]
    exact hl _ (List.getElem_mem hi)
  · rwa [List.getD_eq_default _ _ (Nat.le_of_not_lt hi)]

/-- The entries of the S-boxes are 4-bit values (R137). -/
theorem sbox_lt (g : Nat) : ∀ row ∈ sbox g, ∀ a ∈ row, a < 16 := by
  unfold sbox
  split <;> decide

theorem sboxEntry_lt (g : Nat) (b : Nat → Bool) : sboxEntry g b < 16 :=
  getD_of_forall_mem (getD_of_forall_mem (sbox_lt g) (List.forall_mem_nil _) _) (by decide) _

/-- An S-box looks at the six bits of its group only (R138). -/
theorem sboxEntry_congr {g : Nat} {b c : Nat → Bool} (h : ∀ i < 6, b i = c i) :
    sboxEntry g b = sboxEntry g c := by
  simp (disch := decide) only [sboxEntry, h]

/-- No entry is cut off by the four bits it is held in (R137). -/
theorem toNat_sboxValue (g : Nat) (grp : BitVec 6) :
    (sboxValue g grp).toNat = sboxEntry g (idx grp) :=
  Nat.mod_eq_of_lt (sboxEntry_lt g (idx grp))

section
variable (x : RoundKey) {g : Nat} (h1 : 1 ≤ g) (h8 : g ≤ 8)
include h1 h8

/-- Group g is positions 6g - 5 to 6g (R136). -/
theorem idx_group {b : Nat} (hb : b < 6) : idx (group x g) b = x.getMsbD (6 * g - 6 + b) := by
  have hle : 48 - 6 * g + 6 - b ≤ 48 := by omega
  have hj : 48 - (48 - 6 * g + 6 - b) = 6 * g - 6 + b := by omega
  rw [idx, group, BitVec.getMsbD_extractLsb', hj]
  simp [hb, hle]

/-- The value of S_g is at positions 4g - 3 to 4g (R136). -/
theorem extractLsb'_sboxLayer :
    (sboxLayer x).extractLsb' (32 - 4 * g) 4 = sboxValue g (group x g) := by
  unfold sboxLayer
  interval_cases g <;>
    simp (disch := decide) only [BitVec.extractLsb'_append_eq_of_le,
      BitVec.extractLsb'_append_eq_of_add_le, Nat.reduceMul, Nat.reduceSub,
      BitVec.extractLsb'_eq_self]

/-- Steps (c) and (d) of R136: S_g replaces group g by the entry its six bits select. -/
theorem toNat_extractLsb'_sboxLayer : ((sboxLayer x).extractLsb' (32 - 4 * g) 4).toNat =
    sboxEntry g fun b => x.getMsbD (6 * g - 6 + b) := by
  rw [extractLsb'_sboxLayer x h1 h8, toNat_sboxValue]
  exact sboxEntry_congr fun _ => idx_group x h1 h8

end

/-! ### The round function -/

/-- R139: `feistel` is the round function. -/
theorem roundFunction_feistel (r : Half) (k : RoundKey) : RoundFunction r k (feistel r k) := by
  refine ⟨gather 48 eTable r ^^^ k, sboxLayer (gather 48 eTable r ^^^ k), fun j hj => ?_,
    fun _ => toNat_extractLsb'_sboxLayer _, fun j hj => getMsbD_gather pTable _ hj⟩
  rw [BitVec.getMsbD_xor, getMsbD_gather eTable r hj]

/-- R140 (a): `feistel` depends on its inputs only through E(R) xor K. -/
theorem feistel_congr {r r' : Half} {k k' : RoundKey}
    (h : gather 48 eTable r ^^^ k = gather 48 eTable r' ^^^ k') : feistel r k = feistel r' k' := by
  rw [feistel, feistel, h]

/-- Each output bit is one input bit, so gathering goes through the complement where every entry is
in range (R100). -/
theorem gather_not {n m : Nat} {t : Table} (hm : m ≤ t.length) (ht : tableFits t n = true)
    (v : BitVec n) : gather m t (~~~v) = ~~~gather m t v := by
  refine BitVec.eq_of_getMsbD_eq fun j hj => ?_
  have hlt : j < t.length := hj.trans_le hm
  obtain ⟨h1, hn⟩ := (tableFits_iff t n).mp ht t[j] (List.getElem_mem hlt)
  have hpos : t.getD j 0 - 1 < n := by
    rw [List.getD_eq_getElem _ _ hlt]
    omega
  simp only [BitVec.getMsbD_not, getMsbD_gather t _ hj, hj, hpos]

/-! ### The command FEISTEL -/

/-- A register's vector is its low bits (R12). -/
theorem held_eq_extractLsb' (bits : Data) {n : Nat} (h : n ≤ 64) :
    held bits n = bits.extractLsb' 0 n := BitVec.setWidth_eq_extractLsb' h

section
variable {s : State}

theorem validateFeistel_eq_none :
    validateFeistel s = none ↔ s.opa.len = 32 ∧ s.opb.len = 48 := by
  unfold validateFeistel
  split_ifs <;> simp_all

/-- R143: what FEISTEL answers, its checks in order. -/
theorem exec_feistel (hb : s.busy = false) : exec .feistel s = .next (
    if s.opa.len ≠ 32 then refusedState 0x003 .invalidBlockLength s
    else if s.opb.len ≠ 48 then refusedState 0x003 .invalidKeyLength s
    else acceptedState 0x003 0 s.blk s) := by
  have hv : checksOf .feistel s = validateFeistel s := rfl
  unfold validateFeistel at hv
  split_ifs at hv ⊢
  · exact exec_refused rfl hb hv
  · exact exec_refused rfl hb hv
  · exact exec_accepted_single rfl (by decide) hb hv

/-- R144: the one engine step of an accepted FEISTEL. -/
theorem engineStep_acceptedFeistel (hopa : s.opa.len = 32) (hopb : s.opb.len = 48) :
    engineStep (acceptedState 0x003 0 s.blk s) = .next (resultState 0x003
      (vecReg (feistel (held s.opa.bits 32) (held s.opb.bits 48))) s) := by
  have hv : validateFeistel (acceptedState 0x003 0 s.blk s) = none :=
    (validateFeistel_congr (sameOperands_acceptedState ..)).trans
      (validateFeistel_eq_none.mpr ⟨hopa, hopb⟩)
  exact engineStep_iff.mpr ⟨rfl, .feistel (s := acceptedState 0x003 0 s.blk s) rfl rfl hv⟩

end

end Sys2Proof.Machine

namespace Sys2Proof.Proofs

open Sys2Proof.Machine Sys2Proof.Safety

/-- Settles O23: each check that fails decides the code. -/
theorem feistelValidation : Obligations.FeistelValidation := fun _ => exec_feistel

/-- Settles O51: the complement goes through E, and the xor of two complements is the xor. -/
theorem feistelSeesOnlyTheXor : Obligations.FeistelSeesOnlyTheXor := by
  refine ⟨fun _ _ _ _ => feistel_congr, fun r k => feistel_congr ?_⟩
  rw [gather_not (t := eTable) (by decide) (by decide), ← BitVec.not_xor_left,
    ← BitVec.not_xor_right, BitVec.not_not]

/-- Settles O29: FEISTEL's one step is by its rule, and the round function is followed group by
group. -/
theorem feistelResult : Obligations.FeistelResult := by
  refine ⟨fun s hb hopa hopb => ⟨?_, ?_⟩, roundFunction_feistel, by decide +kernel⟩
  · rw [exec_feistel hb, if_neg (not_not.mpr hopa), if_neg (not_not.mpr hopb)]
  · rw [← held_eq_extractLsb' _ (by decide), ← held_eq_extractLsb' _ (by decide)]
    exact completesIn_one rfl (engineStep_acceptedFeistel hopa hopb) rfl

end Sys2Proof.Proofs
end

section
/-!
PROOFS. DES.ENC and DES.DEC: validation and acceptance, and the nineteen engine steps of an accepted
command (43_des_engine.md R158 to R165; 45_host_transfers.md R194; 60_exceptions.md R213).
-/
namespace Sys2Proof.Machine

open Sys2Proof.Safety

/-! ### Acceptance -/

section
variable {i : Instr} {w : CmdWord} {k : KeySlot} {s : State}

/-- R194: a DES or TDES command whose validation passes is accepted in STAGE 1, with the block in
BLK. -/
theorem exec_accepted_cipher (hw : encode i = .cw w) (hc : IsCipher w) (hb : s.busy = false)
    (hv : checksOf i s = none) : exec i s = .next (acceptedState w 1 s.opa.bits s) := by
  rw [exec_eq_command hw, command_accepted hb ((checksOf_takeWord i w s).trans hv),
    acceptanceOf_cipher hc]
  rfl

/-- R158: what a DES command answers, its checks in order. -/
theorem desChecks_of_command (hw : encode i = .cw w) (hop : cwOp w = 4)
    (hi : checksOf i = validateDes k) : DesChecks i w k := by
  intro s hb
  have hv : checksOf i s = validateDes k s := congrFun hi s
  unfold validateDes at hv
  split_ifs at hv ⊢
  · exact exec_refused hw hb hv
  · exact exec_refused hw hb hv
  · exact exec_accepted_cipher hw (.inl hop) hb hv

end

/-! ### A run of the engine that ends a command -/

/-- An engine run of n + 1 steps has a first step. -/
theorem exists_of_engineRun_succ {n : Nat} {u t : State} (h : engineRun (n + 1) u = .next t) :
    ∃ v, engineStep u = .next v ∧ engineRun n v = .next t := by
  cases hs : engineStep u with
  | next v => exact ⟨v, rfl, engineRun_succ hs ▸ h⟩
  | fault f => simp [engineRun, hs] at h
  | refused x => simp [engineRun, hs] at h

/-- Every state that the engine steps on from has BUSY = 1 (R17). -/
theorem busy_of_engineRun {n k : Nat} {u t : State} (h : engineRun n u = .next t) (hk : k < n) :
    ∃ v, engineRun k u = .next v ∧ v.busy = true := by
  induction n generalizing u k with
  | zero => exact absurd hk (Nat.not_lt_zero k)
  | succ n ih =>
    obtain ⟨v, hstep, hrun⟩ := exists_of_engineRun_succ h
    cases k with
    | zero => exact ⟨u, rfl, (engineStep_iff.mp hstep).1⟩
    | succ k =>
      rw [engineRun_succ hstep]
      exact ih hrun (Nat.lt_of_succ_lt_succ hk)

/-- A run to a state with BUSY = 0 takes exactly the command's steps. -/
theorem completesIn_of_engineRun {n : Nat} {u t : State} (h : engineRun n u = .next t)
    (ht : t.busy = false) : CompletesIn n u t :=
  ⟨h, ht, fun _ => busy_of_engineRun h⟩

/-! ### The last stage -/

/-- A block in a result register is its bits with the length 64 (R12). -/
theorem vecReg_block (v : Block) : vecReg v = ⟨64, v⟩ := by rw [vecReg, BitVec.setWidth_eq]; rfl

section
variable {s : State}

/-- R163, R165: what the last stage of a command leaves, from its state at Init. -/
theorem complete_stagePreOutput (he : s.err = .none) (key : Block) :
    complete (vecReg (des s.blk key (stageDir s.cmd s.stage)))
        (storeOutput (des s.blk key (stageDir s.cmd s.stage)) (stagePreOutput key s)) =
      cipherState s.cmd s.stage key
        (desHalves (stageDir s.cmd s.stage) (ksched key) (desStart s.blk) 16)
        (des s.blk key (stageDir s.cmd s.stage)) s := by
  rw [vecReg_block]
  unfold cipherState
  rw [← he]
  rfl

/-- The last stage of a command takes nineteen steps and completes it (R160 to R165). -/
theorem engineRun_lastStage_eq_cipherState {k : KeySlot} (hb : s.busy = true)
    (hc : IsCipher s.cmd) (hp : s.phase = .init) (h0 : s.round = 0) (he : s.err = .none)
    (hk : stageKey s.cmd s.stage = some k) (hlen : (keyslot s k).len = 64)
    (hlast : s.stage = nstage s.cmd) : engineRun 19 s = .next (cipherState s.cmd s.stage
      (keyslot s k).bits
      (desHalves (stageDir s.cmd s.stage) (ksched (keyslot s k).bits) (desStart s.blk) 16)
      (des s.blk (keyslot s k).bits (stageDir s.cmd s.stage)) s) :=
  (engineRun_lastStage hb hc hp h0 hk hlen hlast).trans
    (congrArg _ (complete_stagePreOutput he _))

end

/-! ### The command -/

/-- R165: a DES command with a valid block and key is accepted, and nineteen engine steps complete
it. -/
theorem desRuns_of_command {i : Instr} {w : CmdWord} {k : KeySlot} {dir : Dir}
    (hw : encode i = .cw w) (hop : cwOp w = 4) (hi : checksOf i = validateDes k)
    (hk : kselSlot (cwKsel w) = some k) (hdir : dirOf (cwDir w) = dir) : DesRuns i w k dir := by
  intro s hb hopa hkey
  have hv : checksOf i s = none := by rw [hi, validateDes_eq_none.mpr ⟨hopa, hkey⟩]
  have hslot : keyslot (acceptedState w 1 s.opa.bits s) k = keyslot s k :=
    keyslot_congr (sameOperands_acceptedState ..) k
  have hstageKey : stageKey w 1 = some k := by simp [stageKey, hop, hk]
  have hstageDir : stageDir w 1 = dir := by simp [stageDir, hop, hdir]
  have hrun := engineRun_lastStage_eq_cipherState (s := acceptedState w 1 s.opa.bits s) rfl
    (.inl hop) rfl rfl rfl hstageKey (hslot ▸ hkey) (nstage_des hop).symm
  rw [hslot] at hrun
  subst hstageDir
  exact ⟨exec_accepted_cipher hw (.inl hop) hb hv, completesIn_of_engineRun hrun rfl⟩

end Sys2Proof.Machine

namespace Sys2Proof.Proofs

open Sys2Proof.Machine Sys2Proof.Safety

/-- Settles O24: each of the six commands has the validation of its slot. -/
theorem desValidation : Obligations.DesValidation :=
  ⟨desChecks_of_command rfl rfl rfl, desChecks_of_command rfl rfl rfl,
    desChecks_of_command rfl rfl rfl, desChecks_of_command rfl rfl rfl,
    desChecks_of_command rfl rfl rfl, desChecks_of_command rfl rfl rfl⟩

/-- Settles O30: the command's one stage is its last. -/
theorem desCommandComputesDes : Obligations.DesCommandComputesDes :=
  ⟨desRuns_of_command rfl rfl rfl rfl rfl, desRuns_of_command rfl rfl rfl rfl rfl,
    desRuns_of_command rfl rfl rfl rfl rfl, desRuns_of_command rfl rfl rfl rfl rfl,
    desRuns_of_command rfl rfl rfl rfl rfl, desRuns_of_command rfl rfl rfl rfl rfl⟩

end Sys2Proof.Proofs
end

section
/-!
PROOFS. The function `des`: its rounds bit by bit, decryption as the rounds of encryption backwards,
and the complementation property (43_des_engine.md R153 to R157, R166).
-/
namespace Sys2Proof.Machine

open Sys2Proof.Safety

/-! ### The halves of a block -/

/-- The first half is positions 1 to 32 (R153). -/
theorem getMsbD_firstHalf (v : Block) {j : Nat} (h : j < 32) :
    (firstHalf v).getMsbD j = v.getMsbD j := by
  have hle : 32 + 32 - j ≤ 64 := by omega
  have hj : 64 - (32 + 32 - j) = j := by omega
  rw [firstHalf, BitVec.getMsbD_extractLsb', hj]
  simp [h, hle]

/-- The last half is positions 33 to 64 (R153). -/
theorem getMsbD_lastHalf (v : Block) {j : Nat} (h : j < 32) :
    (lastHalf v).getMsbD j = v.getMsbD (32 + j) := by
  have hle : 0 + 32 - j ≤ 64 := by omega
  have hj : 64 - (0 + 32 - j) = 32 + j := by omega
  rw [lastHalf, BitVec.getMsbD_extractLsb', hj]
  simp [h, hle]

/-- The pre-output of the exchanged halves of a block is the block (R153, R155). -/
theorem preOutput_swap_halves (v : Block) : preOutput (firstHalf v, lastHalf v).swap = v :=
  (BitVec.extractLsb'_append_extractLsb'_eq_extractLsb' rfl).trans BitVec.extractLsb'_eq_self

/-- The halves of a pre-output are the two halves exchanged (R155). -/
theorem halves_preOutput (lr : Half × Half) :
    (firstHalf (preOutput lr), lastHalf (preOutput lr)) = lr.swap :=
  Prod.ext BitVec.extractLsb'_append_eq_left BitVec.extractLsb'_append_eq_right

/-! ### The round keys -/

/-- Round i + 1 takes K_{i+1} in encryption and K_{16-i} in decryption (R156). -/
theorem roundKey_succ (dir : Dir) (rk : Vector RoundKey 16) (i : Fin 16) :
    roundKey dir rk (i + 1) = if dir = .encrypt then rk[i] else rk[i.rev] := by
  cases dir with
  | encrypt => simp [roundKey, rkAt, rkIndex]
  | decrypt =>
    have h0 : 16 - i.val ≠ 0 := by omega
    have hrev : 16 - i.val - 1 = 15 - i.val := by omega
    have hlt : 15 - i.val < 16 := by omega
    simp [roundKey, rkAt, rkIndex, h0, hrev, hlt]

/-- Round i of one direction takes the key of round 17 - i of the other (R156). -/
theorem roundKey_opposite (dir : Dir) (rk : Vector RoundKey 16) {i : Nat} (h : i ≤ 17) :
    roundKey (opposite dir) rk i = roundKey dir rk (17 - i) := by
  cases dir with
  | encrypt => rfl
  | decrypt => rw [roundKey, roundKey, opposite, rkIndex, rkIndex, Nat.sub_sub_self h]

/-! ### The rounds -/

/-- R153 to R157: `des` is sixteen rounds between the two permutations. -/
theorem sixteenRounds_des (block key : Block) (dir : Dir) :
    SixteenRounds block (ksched key) dir (des block key dir) := by
  let halves := desHalves dir (ksched key) (desStart block)
  refine ⟨fun i => (halves i).1, fun i => (halves i).2, fun j hj => ⟨?_, ?_⟩,
    fun i => ⟨rfl, ?_⟩, fun j hj => getMsbD_gather fpTable _ hj⟩
  · exact (getMsbD_firstHalf _ hj).trans (getMsbD_gather ipTable block (by omega))
  · exact (getMsbD_lastHalf _ hj).trans (getMsbD_gather ipTable block (by omega))
  · rw [← roundKey_succ]
    rfl

/-- A round undoes itself on the exchanged halves (R154). -/
theorem desRound_swap_desRound (k : RoundKey) (lr : Half × Half) :
    desRound k (desRound k lr).swap = lr.swap :=
  Prod.ext rfl (by simp [desRound])

/-- R166 (b): the rounds of the opposite direction, from the exchanged halves after the last round,
go back through the rounds. -/
theorem desHalves_opposite (dir : Dir) (rk : Vector RoundKey 16) (lr : Half × Half) {i : Nat}
    (h : i ≤ 16) : desHalves (opposite dir) rk (desHalves dir rk lr 16).swap i =
      (desHalves dir rk lr (16 - i)).swap := by
  induction i with
  | zero => rfl
  | succ i ih =>
    have hround : 17 - (i + 1) = 16 - (i + 1) + 1 := by omega
    have hprev : 16 - i = 16 - (i + 1) + 1 := by omega
    rw [desHalves, ih (by omega), roundKey_opposite dir rk (by omega), hround, hprev, desHalves,
      desRound_swap_desRound]

/-- IP of a stage's output gives the exchanged halves after its last round (R153, R155). -/
theorem desStart_des (p k : Block) (dir : Dir) :
    desStart (des p k dir) = (desHalves dir (ksched k) (desStart p) 16).swap := by
  rw [desStart, des, undoes_ip_fp.gather_gather, halves_preOutput]

/-- R166 (a): the opposite direction undoes `des`. -/
theorem des_des_opposite (p k : Block) (dir : Dir) : des (des p k dir) k (opposite dir) = p := by
  rw [des, desStart_des, desHalves_opposite dir _ _ le_rfl, Nat.sub_self, desHalves, desStart,
    preOutput_swap_halves, undoes_fp_ip.gather_gather]

/-! ### The complement (R166) -/

/-- A slice of the complement is the complement of the slice. -/
theorem extractLsb'_not_of_le {n lo len : Nat} (v : BitVec n) (h : lo + len ≤ n) :
    (~~~v).extractLsb' lo len = ~~~v.extractLsb' lo len := by
  refine BitVec.eq_of_getLsbD_eq fun j hj => ?_
  have hlt : lo + j < n := by omega
  simp [hj, hlt]

theorem rotl_not (c : KeyHalf) (a : Nat) : rotl (~~~c) a = ~~~rotl c a := by
  refine BitVec.eq_of_getMsbD_eq fun j hj => ?_
  have hlt : (j + a) % 28 < 28 := Nat.mod_lt _ (by decide)
  simp only [BitVec.getMsbD_not, getMsbD_rotl _ _ hj, hj, hlt]

theorem halfAfter_not (c : KeyHalf) (i : Nat) : halfAfter (~~~c) i = ~~~halfAfter c i :=
  List.foldl_hom (g₁ := rotl) (~~~·) rotl_not

theorem keyC_not (key : Block) : keyC (~~~key) = ~~~keyC key := by
  rw [keyC, keyC, gather_not (t := pc1Table) (by decide) (by decide),
    extractLsb'_not_of_le _ (by decide)]

theorem keyD_not (key : Block) : keyD (~~~key) = ~~~keyD key := by
  rw [keyD, keyD, gather_not (t := pc1Table) (by decide) (by decide),
    extractLsb'_not_of_le _ (by decide)]

/-- The round keys of the complemented key are the complements of the round keys. -/
theorem ksched_not_getElem (key : Block) (i : Fin 16) :
    (ksched (~~~key))[i] = ~~~(ksched key)[i] := by
  rw [ksched_getElem, ksched_getElem, keyC_not, keyD_not, halfAfter_not, halfAfter_not,
    ← BitVec.not_append, gather_not (t := pc2Table) (by decide) (by decide)]

theorem roundKey_ksched_not (dir : Dir) (key : Block) (i : Fin 16) :
    roundKey dir (ksched (~~~key)) (i + 1) = ~~~roundKey dir (ksched key) (i + 1) := by
  rw [roundKey_succ, roundKey_succ, ksched_not_getElem, ksched_not_getElem]
  split_ifs <;> rfl

/-- Both halves complemented. -/
def notHalves (lr : Half × Half) : Half × Half := (~~~lr.1, ~~~lr.2)

/-- The complement goes through a round, since `feistel` does not see it (R140). -/
theorem desRound_not (k : RoundKey) (lr : Half × Half) :
    desRound (~~~k) (notHalves lr) = notHalves (desRound k lr) := by
  simp only [desRound, notHalves, Proofs.feistelSeesOnlyTheXor.2, BitVec.not_xor_left]

theorem desStart_not (p : Block) : desStart (~~~p) = notHalves (desStart p) := by
  rw [desStart, gather_not (t := ipTable) (by decide) (by decide)]
  exact Prod.ext (extractLsb'_not_of_le _ (by decide)) (extractLsb'_not_of_le _ (by decide))

theorem preOutput_notHalves (lr : Half × Half) : preOutput (notHalves lr) = ~~~preOutput lr :=
  BitVec.not_append.symm

/-- With the key complemented, the complement goes through the rounds. -/
theorem desHalves_not (dir : Dir) (key : Block) (lr : Half × Half) {i : Nat} (h : i ≤ 16) :
    desHalves dir (ksched (~~~key)) (notHalves lr) i =
      notHalves (desHalves dir (ksched key) lr i) := by
  induction i with
  | zero => rfl
  | succ i ih =>
    rw [desHalves, ih (by omega), roundKey_ksched_not dir key ⟨i, h⟩, desRound_not, desHalves]

end Sys2Proof.Machine

namespace Sys2Proof.Proofs

open Sys2Proof.Machine

/-- Settles O59: the halves are those of the model's rounds, and the example is computed. -/
theorem desIsSixteenRounds : Obligations.DesIsSixteenRounds :=
  ⟨sixteenRounds_des, by decide +kernel⟩

/-- Settles O53: decryption starts from the exchanged halves after encryption's last round. -/
theorem decryptionTraceMirrorsEncryption : Obligations.DecryptionTraceMirrorsEncryption := by
  intro p k i hi
  rw [desStart_des]
  exact desHalves_opposite .encrypt _ _ hi

/-- Settles O52: each direction undoes the other. -/
theorem decryptionInvertsEncryption : Obligations.DecryptionInvertsEncryption :=
  fun p k => ⟨des_des_opposite p k .encrypt, des_des_opposite p k .decrypt⟩

/-- Settles O54: the complement goes through IP, the rounds, the pre-output and FP. -/
theorem desCommutesWithComplement : Obligations.DesCommutesWithComplement := by
  intro p k dir
  rw [des, des, desStart_not, desHalves_not dir k _ le_rfl, preOutput_notHalves,
    gather_not (t := fpTable) (by decide) (by decide)]

end Sys2Proof.Proofs
end

section
/-!
PROOFS. Triple DES: the laws of the function `tdes`, the validation of the four TDES commands, and
the fifty-nine engine steps of an accepted one (44_tdes_composer.md R177 to R182).
-/
namespace Sys2Proof.Machine

open Sys2Proof.Safety

/-! ### The function -/

@[simp] theorem opposite_opposite (dir : Dir) : opposite (opposite dir) = dir := by
  cases dir <;> rfl

/-- The first and the last key of triple DES in the order of time (R176). -/
def outerKeys (key1 : Block) (key3opt : Option Block) : Dir → Block × Block
  | .encrypt => (key1, key3opt.getD key1)
  | .decrypt => (key3opt.getD key1, key1)

/-- The opposite direction takes the keys in the inverse order (R176). -/
theorem outerKeys_opposite (key1 : Block) (key3opt : Option Block) (dir : Dir) :
    outerKeys key1 key3opt (opposite dir) = (outerKeys key1 key3opt dir).swap := by
  cases dir <;> rfl

/-- R180 for both directions at once: the middle stage runs the opposite way. -/
theorem tdes_eq (x key1 key2 : Block) (key3opt : Option Block) (dir : Dir) :
    tdes x key1 key2 key3opt dir =
      des (des (des x (outerKeys key1 key3opt dir).1 dir) key2 (opposite dir))
        (outerKeys key1 key3opt dir).2 dir := by
  cases dir <;> rfl

/-- A use of `des` undoes the one in the opposite direction before it (R166). -/
theorem des_opposite_des (p k : Block) (dir : Dir) : des (des p k (opposite dir)) k dir = p := by
  simpa only [opposite_opposite] using des_des_opposite p k (opposite dir)

/-- R181 (a): the opposite direction undoes `tdes`, stage by stage from the last. -/
theorem tdes_tdes_opposite (p key1 key2 : Block) (key3opt : Option Block) (dir : Dir) :
    tdes (tdes p key1 key2 key3opt dir) key1 key2 key3opt (opposite dir) = p := by
  rw [tdes_eq, tdes_eq, outerKeys_opposite, Prod.fst_swap, Prod.snd_swap, opposite_opposite,
    des_des_opposite, des_opposite_des, des_des_opposite]

/-- R181 (b): with equal keys the second stage undoes the first. -/
theorem tdes_equal_keys (x k : Block) (dir : Dir) : tdes x k k none dir = des x k dir := by
  have hkeys : outerKeys k none dir = (k, k) := by cases dir <;> rfl
  rw [tdes_eq, hkeys, des_des_opposite]

/-- R181 (c): key3 equal to key1 is two-key mode. -/
theorem tdes_some_key1 (x key1 key2 : Block) (dir : Dir) :
    tdes x key1 key2 (some key1) dir = tdes x key1 key2 none dir := rfl

/-! ### Validation -/

section
variable {i : Instr} {w : CmdWord} {threeKey : Bool} {s : State}

/-- R178: what a TDES command answers, its checks in order. -/
theorem tdesChecks_of_command (hw : encode i = .cw w) (hop : cwOp w = 5)
    (hi : checksOf i = validateTdes threeKey) : TdesChecks i w threeKey := by
  intro s hb
  have hv : checksOf i s = validateTdes threeKey s := congrFun hi s
  unfold validateTdes at hv
  split_ifs at hv ⊢
  case neg => exact exec_accepted_cipher hw (.inr hop) hb hv
  all_goals exact exec_refused hw hb hv

/-- The key register of stage st of the TDES command w (R177). -/
def tdesKey (w : CmdWord) (st : BitVec 2) (s : State) : VecReg := keyslot s (tdesStageKey w st)

theorem tdesKey_congr {t : State} (h : SameOperands s t) (st : BitVec 2) :
    tdesKey w st t = tdesKey w st s := keyslot_congr h _

/-- R177, R178: where the block and the keys of the three stages are 64 bits long, the validation
passes. -/
theorem validateTdes_of_stageKeys (hopa : s.opa.len = 64)
    (h1 : (tdesKey w 1 s).len = 64) (h2 : (tdesKey w 2 s).len = 64)
    (h3 : (tdesKey w 3 s).len = 64) :
    validateTdes (decide (cwK3en w = 1)) s = none := by
  have hkey2 : s.key2.len = 64 := h2
  cases hd : dirOf (cwDir w) with
  | encrypt =>
    have first : tdesKey w 1 s = s.key1 := by simp [tdesKey, tdesStageKey, hd, keyslot]
    have last (hk : cwK3en w = 1) : tdesKey w 3 s = s.key3 := by
      simp [tdesKey, tdesStageKey, hd, hk, keyslot]
    exact validateTdes_eq_none.mpr
      ⟨hopa, first ▸ h1, hkey2, fun hk => last (of_decide_eq_true hk) ▸ h3⟩
  | decrypt =>
    have first (hk : cwK3en w = 1) : tdesKey w 1 s = s.key3 := by
      simp [tdesKey, tdesStageKey, hd, hk, keyslot]
    have last : tdesKey w 3 s = s.key1 := by simp [tdesKey, tdesStageKey, hd, keyslot]
    exact validateTdes_eq_none.mpr
      ⟨hopa, last ▸ h3, hkey2, fun hk => first (of_decide_eq_true hk) ▸ h1⟩

end

/-! ### The three stages -/

section
variable {s : State}

/-- The state at Init of the next stage, from the state at Init of a stage with the given key (R160
to R163, R179). -/
def afterStage (key : Block) (s : State) : State :=
  enterStage (storeOutput (des s.blk key (stageDir s.cmd s.stage)) (stagePreOutput key s))

/-- All that a stage and the step after it write (R160 to R163, R179). -/
theorem afterStage_eq (key : Block) (s : State) :
    afterStage key s = { s with
      rk := ksched key
      rkValid := true
      l := (desHalves (stageDir s.cmd s.stage) (ksched key) (desStart s.blk) 16).1
      r := (desHalves (stageDir s.cmd s.stage) (ksched key) (desStart s.blk) 16).2
      blk := des s.blk key (stageDir s.cmd s.stage)
      phase := .init
      round := 0
      stage := s.stage + 1 } := by
  simp only [afterStage, enterStage, storeOutput, stagePreOutput, formPreOutput, afterRounds,
    roundHalves, afterPermuted, loadHalves, storeSchedule]

/-- A stage writes no operand register. -/
theorem sameOperands_afterStage (key : Block) (s : State) : SameOperands s (afterStage key s) := by
  rw [afterStage_eq]
  exact ⟨rfl, rfl, rfl, rfl, rfl, rfl, rfl⟩

/-- Each stage finds its key as it was when the command was accepted (R178). -/
@[simp] theorem tdesKey_afterStage (w : CmdWord) (st : BitVec 2) (key : Block) (s : State) :
    tdesKey w st (afterStage key s) = tdesKey w st s :=
  tdesKey_congr (sameOperands_afterStage key s) st

/-- What a completed command leaves does not depend on what the stages before the last wrote. -/
@[simp] theorem cipherState_afterStage (w : CmdWord) (stage : BitVec 2) (key key' : Block)
    (halves : Half × Half) (out : Block) (s : State) :
    cipherState w stage key halves out (afterStage key' s) =
      cipherState w stage key halves out s := by
  rw [afterStage_eq]
  rfl

/-- The TDES command w stands at Init of stage st (R178, R179). -/
structure AtStage (w : CmdWord) (st : BitVec 2) (s : State) : Prop where
  op : cwOp w = 5
  cmd : s.cmd = w
  stage : s.stage = st
  busy : s.busy = true
  noError : s.err = .none
  init : s.phase = .init
  round : s.round = 0

theorem atStage_acceptedState {w : CmdWord} (hop : cwOp w = 5) (st : BitVec 2) (blk : Block)
    (s : State) : AtStage w st (acceptedState w st blk s) := ⟨hop, rfl, rfl, rfl, rfl, rfl, rfl⟩

section
variable {w : CmdWord} {st : BitVec 2}

theorem AtStage.afterStage (h : AtStage w st s) (key : Block) :
    AtStage w (st + 1) (afterStage key s) := by
  rw [afterStage_eq]
  exact ⟨h.op, h.cmd, congrArg (· + 1) h.stage, h.busy, h.noError, rfl, rfl⟩

/-- The key of a stage is that of its slot (R177). -/
theorem AtStage.stageKey (h : AtStage w st s) :
    stageKey s.cmd s.stage = some (tdesStageKey w st) := by
  rw [h.cmd, h.stage, Machine.stageKey, if_pos h.op]

/-- The block at Init of the next stage is this stage's output (R163, R177, R179). -/
theorem AtStage.afterStage_blk (h : AtStage w st s) (key : Block) :
    (Machine.afterStage key s).blk = des s.blk key (tdesStageDir w st) := by
  rw [afterStage_eq, h.cmd, h.stage, stageDir, if_pos h.op]

/-- A stage that is not the last takes nineteen steps, and one more leads to the next (R163,
R179). -/
theorem AtStage.engineRun_afterStage (h : AtStage w st s) (hlen : (tdesKey w st s).len = 64)
    (hmore : st ≠ 3) :
    engineRun 20 s = .next (Machine.afterStage (tdesKey w st s).bits s) :=
  let p := stagePreOutput (tdesKey w st s).bits s
  let q := storeOutput (gather 64 fpTable p.blk) p
  have hop : cwOp s.cmd = 5 := h.cmd ▸ h.op
  have hne : s.stage ≠ 3 := h.stage ▸ hmore
  calc engineRun (18 + 2) s
      = engineRun (1 + 1) p :=
        engineRun_add (engineRun_stagePreOutput h.busy (.inr hop) h.init h.round h.stageKey hlen)
    _ = engineRun 1 q := engineRun_add ((EngineRule.output (s := p) (.inr hop) rfl
        (nstage_tdes hop ▸ hne)).engineRun_one h.busy)
    _ = .next (enterStage q) :=
        (EngineRule.nextStage (s := q) hop rfl hne).engineRun_one h.busy

/-- The third stage takes nineteen steps and completes the command (R163, R182). -/
theorem AtStage.engineRun_last (h : AtStage w 3 s) (hlen : (tdesKey w 3 s).len = 64) :
    engineRun 19 s = .next (cipherState w 3 (tdesKey w 3 s).bits
      (desHalves (tdesStageDir w 3) (ksched (tdesKey w 3 s).bits)
        (desStart s.blk) 16)
      (des s.blk (tdesKey w 3 s).bits (tdesStageDir w 3)) s) := by
  have hc : IsCipher s.cmd := .inr (h.cmd ▸ h.op)
  have hlast : s.stage = nstage s.cmd := by rw [h.stage, h.cmd, nstage_tdes h.op]
  have hdir : stageDir s.cmd s.stage = tdesStageDir w 3 := by
    rw [h.cmd, h.stage, stageDir, if_pos h.op]
  have hrun := engineRun_lastStage_eq_cipherState h.busy hc h.init h.round h.noError h.stageKey
    hlen hlast
  rwa [hdir, h.cmd, h.stage] at hrun

/-! ### The command -/

/-- R182: twenty steps for each of the first two stages and nineteen for the third complete a TDES
command. -/
theorem AtStage.engineRun_tdes (h : AtStage w 1 s) (hlen1 : (tdesKey w 1 s).len = 64)
    (hlen2 : (tdesKey w 2 s).len = 64) (hlen3 : (tdesKey w 3 s).len = 64) :
    engineRun 59 s = .next (cipherState w 3 (tdesKey w 3 s).bits
      (desHalves (tdesStageDir w 3) (ksched (tdesKey w 3 s).bits)
        (desStart (des (des s.blk (tdesKey w 1 s).bits (tdesStageDir w 1)) (tdesKey w 2 s).bits
          (tdesStageDir w 2))) 16)
      (des (des (des s.blk (tdesKey w 1 s).bits (tdesStageDir w 1)) (tdesKey w 2 s).bits
        (tdesStageDir w 2)) (tdesKey w 3 s).bits (tdesStageDir w 3)) s) := by
  have h2 := h.afterStage (tdesKey w 1 s).bits
  have h3 := h2.afterStage (tdesKey w 2 s).bits
  have hrun1 := h.engineRun_afterStage hlen1 (by decide)
  have hrun2 := h2.engineRun_afterStage (by simpa using hlen2) (by decide)
  have hrun3 := h3.engineRun_last (by simpa using hlen3)
  simp only [tdesKey_afterStage, cipherState_afterStage, h.afterStage_blk, h2.afterStage_blk]
    at hrun2 hrun3
  calc engineRun (20 + (20 + 19)) s
      = engineRun (20 + 19) (Machine.afterStage (tdesKey w 1 s).bits s) := engineRun_add hrun1
    _ = engineRun 19 (Machine.afterStage (tdesKey w 2 s).bits
          (Machine.afterStage (tdesKey w 1 s).bits s)) := engineRun_add hrun2
    _ = _ := hrun3

end

end

/-- R182, R177, R178: a TDES command whose block and stage keys are 64 bits long is accepted, and
fifty-nine engine steps complete it. -/
theorem tdesRuns_of_command {i : Instr} {w : CmdWord} {d : Dir} (hw : encode i = .cw w)
    (hop : cwOp w = 5) (hi : checksOf i = validateTdes (decide (cwK3en w = 1)))
    (hd : dirOf (cwDir w) = d) :
    TdesRuns i w (tdesKey w 1) (tdesKey w 2) (tdesKey w 3) d fun s =>
      des (des (des s.opa.bits (tdesKey w 1 s).bits d) (tdesKey w 2 s).bits (opposite d))
        (tdesKey w 3 s).bits d := by
  intro s hb hopa h1 h2 h3
  have hv : checksOf i s = none := (congrFun hi s).trans (validateTdes_of_stageKeys hopa h1 h2 h3)
  have hkey := tdesKey_congr (w := w) (sameOperands_acceptedState w 1 s.opa.bits s)
  have hrun := (atStage_acceptedState hop 1 s.opa.bits s).engineRun_tdes ((hkey 1).symm ▸ h1)
    ((hkey 2).symm ▸ h2) ((hkey 3).symm ▸ h3)
  rw [hkey, hkey, hkey] at hrun
  subst hd
  exact ⟨exec_accepted_cipher hw (.inr hop) hb hv, completesIn_of_engineRun hrun rfl⟩

end Sys2Proof.Machine

namespace Sys2Proof.Proofs

open Sys2Proof.Machine Sys2Proof.Safety

/-- Settles O31: each of the four commands has the stages of its word. -/
theorem tdesCommandComputesTdes : Obligations.TdesCommandComputesTdes :=
  ⟨tdesRuns_of_command (i := .tdes2Enc) rfl rfl rfl rfl,
    tdesRuns_of_command (i := .tdes2Dec) rfl rfl rfl rfl,
    tdesRuns_of_command (i := .tdes3Enc) rfl rfl rfl rfl,
    tdesRuns_of_command (i := .tdes3Dec) rfl rfl rfl rfl⟩

/-- Settles O55: each direction undoes the other. -/
theorem tripleDecryptionInvertsEncryption : Obligations.TripleDecryptionInvertsEncryption :=
  fun p k1 k2 k3 =>
    ⟨tdes_tdes_opposite p k1 k2 k3 .encrypt, tdes_tdes_opposite p k1 k2 k3 .decrypt⟩

/-- Settles O56: with equal keys a stage undoes the one before it. -/
theorem tripleDesDegenerates : Obligations.TripleDesDegenerates :=
  ⟨fun x k dir => ⟨tdes_equal_keys x k dir,
    (tdes_some_key1 x k k dir).trans (tdes_equal_keys x k dir)⟩, tdes_some_key1⟩

/-- Settles O25: each of the four commands has the validation of its mode. -/
theorem tdesValidation : Obligations.TdesValidation :=
  ⟨tdesChecks_of_command rfl rfl rfl, tdesChecks_of_command rfl rfl rfl,
    tdesChecks_of_command rfl rfl rfl, tdesChecks_of_command rfl rfl rfl⟩

/-- Settles O60: the last key of encryption is KEY3 or, where it is absent, KEY1, and the example is
computed. -/
theorem tripleDesIsThreeDes : Obligations.TripleDesIsThreeDes := by
  refine ⟨fun x k1 k2 key3 => ⟨key3.getD k1, ?_, ?_, ?_, ?_⟩, by decide +kernel⟩
  · rintro rfl
    rfl
  · rintro k rfl
    rfl
  · exact tdes_eq x k1 k2 key3 .encrypt
  · exact tdes_eq x k1 k2 key3 .decrypt

end Sys2Proof.Proofs
end

section
/-!
PROOFS. The host's transfers (45_host_transfers.md): what is held (R195), what a read answers (R196,
R197), what a write stores (R191, R192, R199), and the frame of a command's own step (R194, R213).
-/
namespace Sys2Proof.Machine

open Sys2Proof.Safety

/-! ### Holding -/

/-- R195: while BUSY = 1 every read but that of STATUS waits. -/
theorem execRd_busy {idx : RegIdx} {s : State} (hb : s.busy = true) (hidx : idx ≠ 0x01) :
    execRd idx s = .next s := by
  unfold execRd
  split
  · exact absurd (regIdx_of_regAt idx .status ‹_›).symm hidx
  · exact whenFree_busy hb _
  · exact whenFree_busy hb _

/-- R195: while BUSY = 1 every instruction but the read of STATUS waits. -/
theorem exec_busy {i : Instr} {s : State} (hb : s.busy = true) (hi : i ≠ .rd 0x01) :
    exec i s = .next s := by
  cases i with
  | wr idx len data => exact whenFree_busy hb _
  | rd idx => exact execRd_busy hb fun h => hi (congrArg Instr.rd h)
  | _ => exact exec_command_busy rfl hb

/-! ### Reads -/

/-- R197: with BUSY = 0 a read of a register answers it. -/
theorem exec_rd_regIdx {s : State} (hb : s.busy = false) (x : Reg) :
    exec (.rd (regIdx x)) s = .next (respond s (readReg s x)) := by
  have hr : exec (.rd (regIdx x)) s = execRd (regIdx x) s := rfl
  rw [hr, execRd, regAt_regIdx]
  cases x with
  | status => rfl
  | _ => exact whenFree_free hb _

/-! ### Writes -/

/-- R192: for LEN ≤ 64 a written vector register holds DATA with the bits at and above LEN cleared. -/
theorem vecOf_getLsbD {len : LenTag} (data : Data) (h : len.toNat ≤ 64) {b : Nat} (hb : b < 64) :
    (vecOf len data).bits.getLsbD b = (decide (b < len.toNat) && data.getLsbD b) := by
  rw [vecOf_bits, if_pos h, held]
  simp [hb]

/-- The registers a host write leaves alone (R199). -/
def ReadOnly : Reg → Prop
  | .status => True
  | .res => True
  | .rk _ => True
  | _ => False

theorem storeReg_readOnly {x : Reg} (hx : ReadOnly x) (len : LenTag) (data : Data) (s : State) :
    storeReg len data s x = s := by
  cases x with
  | status | res | rk => rfl
  | _ => exact hx.elim

/-- R199: a write of a read-only register has no effect, whether it is held or not. -/
theorem exec_wr_readOnly {x : Reg} (hx : ReadOnly x) (len : LenTag) (data : Data) (s : State) :
    exec (.wr (regIdx x) len data) s = .next s := by
  cases hb : s.busy with
  | true => exact exec_busy hb nofun
  | false =>
    have hcmd : x ≠ .cmd := fun h => (h ▸ hx : ReadOnly .cmd)
    rw [exec_wr_store hb hcmd, storeReg_readOnly hx]

/-- The indices of RK are 0x10 to 0x1F (R21). -/
theorem exists_regIdx_rk {idx : RegIdx} (h1 : 0x10 ≤ idx.toNat) (h2 : idx.toNat ≤ 0x1F) :
    ∃ i : Fin 16, idx = regIdx (.rk i) := by
  refine ⟨⟨idx.toNat - 0x10, by omega⟩, ?_⟩
  rw [regIdx, Nat.add_sub_cancel' h1, BitVec.ofNat_toNat, BitVec.setWidth_eq]

/-! ### Commands -/

/-- R194, R213: what a command's own step can change; BLK where a DES or TDES command is accepted. -/
theorem CommandDoes.frame {w : CmdWord} {s t : State} (h : CommandDoes w s t) :
    t = { s with cmd := t.cmd, resValid := t.resValid, err := t.err, busy := t.busy,
                 phase := t.phase, round := t.round, stage := t.stage, blk := t.blk } ∧
    (t.blk ≠ s.blk → IsCipher w ∧ t.busy = true ∧ t.blk = s.opa.bits) := by
  obtain ⟨-, rfl⟩ | ⟨-, e, -, rfl⟩ | ⟨-, -, -, rfl⟩ | ⟨-, -, hc, rfl⟩ := h
  · exact ⟨rfl, fun hne => absurd rfl hne⟩
  · exact ⟨rfl, fun hne => absurd rfl hne⟩
  · exact ⟨rfl, fun hne => absurd rfl hne⟩
  · exact ⟨rfl, fun _ => ⟨hc, rfl, rfl⟩⟩

end Sys2Proof.Machine

namespace Sys2Proof.Proofs

open Sys2Proof.Machine

/-- Settles O26: a command waits, raises or is accepted. -/
theorem commandFrame : Obligations.CommandFrame :=
  fun _ _ _ _ hw h => (exec_command_cases hw h).frame

/-- Settles O9: a command, a write and a read are each held. -/
theorem heldInstructionHasNoEffect : Obligations.HeldInstructionHasNoEffect :=
  fun _ _ => exec_busy

/-- Settles O15: each register is read at its index. -/
theorem readReturnsTheRegister : Obligations.ReadReturnsTheRegister :=
  fun s => ⟨exec_readStatus s, fun hb =>
    ⟨exec_rd_regIdx hb .cmd, exec_rd_regIdx hb .opa, exec_rd_regIdx hb .opb,
      exec_rd_regIdx hb .key1, exec_rd_regIdx hb .key2, exec_rd_regIdx hb .key3,
      exec_rd_regIdx hb .res, exec_rd_regIdx hb .tblLen, fun i => exec_rd_regIdx hb (.rk i),
      fun j => exec_rd_regIdx hb (.tbl j)⟩⟩

/-- Settles O17: the vector stored is that of LEN and DATA, in the register written. -/
theorem vectorWriteStoresLengthAndData : Obligations.VectorWriteStoresLengthAndData := by
  intro s len data hb
  refine ⟨vecOf len data, vecOf_len len data, fun h _ => vecOf_getLsbD data h, fun h => ?_,
    exec_wr_store (x := .opa) hb nofun .., exec_wr_store (x := .opb) hb nofun ..,
    exec_wr_store (x := .key1) hb nofun .., exec_wr_store (x := .key2) hb nofun ..,
    exec_wr_store (x := .key3) hb nofun ..⟩
  rw [vecOf_bits, if_neg (Nat.not_le.mpr h)]

/-- Settles O18: the entry written is the low byte of DATA; the others are as they were. -/
theorem tableWriteStoresLowByte : Obligations.TableWriteStoresLowByte := by
  intro s len data hb
  have hlow : data.setWidth 8 = data.extractLsb' 0 8 := held_eq_extractLsb' data (by decide)
  refine ⟨hlow ▸ exec_wr_store (x := .tblLen) hb nofun .., fun j =>
    ⟨_, exec_wr_store (x := .tbl j) hb nofun .., ?_, fun k hk => ?_⟩⟩
  · rw [← hlow]
    exact Vector.getElem_set_self j.isLt
  · obtain ⟨-, -, -, -, -, -, hother⟩ := storeReg_of_ne len data s (.tbl j)
    exact hother k fun h => hk (Reg.tbl.inj h).symm

/-- Settles O19: each of the indices is that of a read-only register. -/
theorem readOnlyWriteHasNoEffect : Obligations.ReadOnlyWriteHasNoEffect := by
  intro idx len data s hidx
  obtain rfl | rfl | ⟨h1, h2⟩ := hidx
  · exact exec_wr_readOnly (x := .status) trivial len data s
  · exact exec_wr_readOnly (x := .res) trivial len data s
  · obtain ⟨i, rfl⟩ := exists_regIdx_rk h1 h2
    exact exec_wr_readOnly (x := .rk i) trivial len data s

end Sys2Proof.Proofs
end

section
/-!
PROOFS. The codes of the host-side conversion and STATUS.ERR (60_exceptions.md R210, R211, R213;
30_encoding.md R63, R93, R95).
-/
namespace Sys2Proof.Machine

/-! ### What a step leaves in ERR -/

/-- R221: the codes a validation raises are not those of the conversion. -/
theorem EngineError.not_hex {e : ErrCode} (h : EngineError e) :
    ¬ (e = .invalidHexLength ∨ e = .invalidHexDigit) := by
  obtain rfl | rfl | rfl | rfl := h <;> decide

section
variable {s t : State}

/-- No rule of the engine writes ERR (R213: an error is raised by the write of a command). -/
theorem EngineRule.err_eq (h : EngineRule s t) : t.err = s.err := by
  rw [h.frame]

/-- A command's own step keeps ERR, clears it or raises one of the engine's four (R194, R213). -/
theorem CommandDoes.err_cases {w : CmdWord} (h : CommandDoes w s t) :
    t.err = s.err ∨ t.err = .none ∨ EngineError t.err := by
  obtain ⟨-, rfl⟩ | ⟨-, e, he, rfl⟩ | ⟨-, -, -, rfl⟩ | ⟨-, -, -, rfl⟩ := h
  · exact .inl rfl
  · exact .inr (.inr he)
  · exact .inr (.inl rfl)
  · exact .inr (.inl rfl)

/-- Only a command writes ERR (R57, R191, R197). -/
theorem exec_err_cases {i : Instr} (h : exec i s = .next t) :
    t.err = s.err ∨ t.err = .none ∨ EngineError t.err := by
  obtain rfl | ⟨x, rfl⟩ | ⟨-, len, data, x, rfl⟩ | ⟨-, w, hd⟩ := exec_cases h
  · exact .inl rfl
  · exact .inl rfl
  · rw [storeReg_frame]
    exact .inl rfl
  · exact hd.err_cases

/-- R211: a step keeps ERR, clears it or puts one of the engine's four codes there. -/
theorem step_err_cases (h : step s = .next t) :
    t.err = s.err ∨ t.err = .none ∨ EngineError t.err := by
  obtain ⟨-, -, rfl⟩ | ⟨-, he⟩ | ⟨w, rest, p, -, -, he⟩ | ⟨rest, i, p, -, he⟩ |
    ⟨rest, p, -, rfl⟩ := step_cases h
  · exact .inl rfl
  · exact .inl (engineStep_iff.mp he).2.err_eq
  · exact exec_err_cases (s := { s with inputs := rest, polls := p }) he
  · exact exec_err_cases (s := { s with inputs := i, polls := p }) he
  · exact .inr (.inl rfl)

end

/-! ### What a failed conversion answers -/

/-- R63: a conversion fails by its length, or else by a digit. -/
theorem hexToBits_error_cases {s : List Char} {width : Nat} {e : ErrCode}
    (h : hexToBits s width = .error e) :
    (4 * s.length ≠ width ∧ e = .invalidHexLength) ∨
    (4 * s.length = width ∧ e = .invalidHexDigit) := by
  by_cases hlen : 4 * s.length = width
  · rw [hexToBits, if_neg (not_not.mpr hlen)] at h
    split at h <;> cases h
    exact .inr ⟨hlen, rfl⟩
  · rw [hexToBits_eq_invalidHexLength hlen] at h
    cases h
    exact .inl ⟨hlen, rfl⟩

end Sys2Proof.Machine

namespace Sys2Proof.Proofs

open Sys2Proof.Machine

/-- Settles O37: a step writes only the engine's own codes, and LD's literal has the length that the
conversion asks for. -/
theorem hexErrorsNeverReachErr : Obligations.HexErrorsNeverReachErr := by
  refine ⟨fun s t hstep hhex => ?_, fun reg digits width e h => ⟨?_, asmLoadHex_error h⟩,
    fun reg digits e h => ?_⟩
  · obtain hkept | hnone | hengine := step_err_cases hstep
    · exact hkept
    · simp [hnone] at hhex
    · exact absurd hhex hengine.not_hex
  · exact (hexToBits_error_cases h).imp And.right And.right
  · obtain ⟨hlen, -⟩ | ⟨-, rfl⟩ := hexToBits_error_cases h
    · exact absurd rfl hlen
    · exact ⟨rfl, asmLoadHex_error h⟩

end Sys2Proof.Proofs
end

section
/-!
PROOFS. The operand registers belong to the host (70_reset_and_hazards.md R247): neither a command's own
step nor an engine step writes them.
-/
namespace Sys2Proof.Machine

open Sys2Proof.Safety

/-- R194, R213: a command's own step takes its word and is refused or accepted; the operands stay. -/
theorem CommandDoes.sameOperands {w : CmdWord} {s t : State} (h : CommandDoes w s t) :
    SameOperands s t := by
  obtain ⟨hframe, -⟩ := h.frame
  rw [hframe]
  exact ⟨rfl, rfl, rfl, rfl, rfl, rfl, rfl⟩

/-- A write to CMD, held or not, does only what `CommandDoes` says, whatever the word (R84, R194). -/
theorem exec_wr_cmd_cases {len : LenTag} {data : Data} {s t : State}
    (h : exec (.wr 0x00 len data) s = .next t) : CommandDoes (data.setWidth 32) s t := by
  have hwr : execWr 0x00 len data s = .next t := h
  obtain hheld | ⟨-, -, hcmd⟩ | ⟨-, x, hx, hne, -⟩ := execWr_cases hwr
  · exact .inl hheld
  · exact writeCmd_cases hcmd
  · exact absurd (Option.some.inj hx).symm hne

end Sys2Proof.Machine

namespace Sys2Proof.Proofs

open Sys2Proof.Machine

/-- Settles O34: a command and a write to CMD do what `CommandDoes` says, and an engine step is by a
rule. -/
theorem operandsAreNeverWritten : Obligations.OperandsAreNeverWritten :=
  ⟨fun _ _ _ _ hw h => (exec_command_cases hw h).sameOperands,
    fun _ _ _ _ h => (exec_wr_cmd_cases h).sameOperands,
    fun _ _ h => (engineStep_iff.mp h).2.sameOperands⟩

end Sys2Proof.Proofs
end

section
/-!
PROOFS. Within a command the engine only moves forward (70_reset_and_hazards.md R250), by STAGE, then
PHASE, then ROUND (43_des_engine.md R160 to R163; 44_tdes_composer.md R179).
-/
namespace Sys2Proof.Machine

open Sys2Proof.Safety

/-! ### The order of `progress` -/

/-- R30: the codes of PHASE are 0 to 5. -/
theorem phaseNumber_le (p : Phase) : (phaseNumber p).toNat ≤ 5 := by
  cases p <;> decide

section
variable {s t : State}

/-- A later STAGE is further on, whatever PHASE and ROUND are. -/
theorem progress_lt_of_stage (hs : s.stage.toNat < t.stage.toNat) : progress s < progress t := by
  have hphase := phaseNumber_le s.phase
  have hround := s.round.isLt
  unfold progress
  omega

/-- In one STAGE a later PHASE is further on, whatever ROUND is. -/
theorem progress_lt_of_phase (hs : t.stage = s.stage)
    (hp : (phaseNumber s.phase).toNat < (phaseNumber t.phase).toNat) : progress s < progress t := by
  have hround := s.round.isLt
  unfold progress
  rw [hs]
  omega

/-- In one PHASE of a STAGE a later ROUND is further on. -/
theorem progress_lt_of_round (hs : t.stage = s.stage) (hp : t.phase = s.phase)
    (hr : s.round.toNat < t.round.toNat) : progress s < progress t := by
  unfold progress
  rw [hs, hp]
  omega

/-! ### The rules -/

/-- R179: the stage after a stage below 3 has the next number. -/
theorem stage_lt_enterStage (h : s.stage ≠ 3) :
    s.stage.toNat < (enterStage s).stage.toNat := by
  rw [enterStage_stage]
  bv_omega

/-- R161: after a round below 16 ROUND is one more. -/
theorem round_lt_roundHalves (x : Half × Half) (h : s.round.toNat < 16) :
    s.round.toNat < (roundHalves x (s.round.toNat + 1) s).round.toNat := by
  rw [roundHalves_round, BitVec.toNat_ofNat]
  omega

/-- Every rule but two leads to a later PHASE of the same STAGE. The step from a round to the next
keeps PHASE as well and raises ROUND; the step between two stages goes back to INIT and raises
STAGE. -/
theorem EngineRule.progress_lt (h : EngineRule s t) : progress s < progress t := by
  cases h with
  | perm _ _ init | ksched _ _ init | feistel _ init | permuted _ _ init =>
    exact progress_lt_of_phase rfl (by simp [init, phaseNumber])
  | round k cipher place =>
    obtain hp | ⟨hp, hlt⟩ := place
    · exact progress_lt_of_phase rfl (by simp [hp, phaseNumber])
    · exact progress_lt_of_round rfl hp.symm (round_lt_roundHalves _ hlt)
  | swapped _ place | output _ place | result _ place =>
    exact progress_lt_of_phase rfl (by simp [place, phaseNumber])
  | nextStage op final more => exact progress_lt_of_stage (stage_lt_enterStage more)

end

end Sys2Proof.Machine

namespace Sys2Proof.Proofs

open Sys2Proof.Machine

/-- Settles O38: the step is by a rule, and each rule moves forward. -/
theorem engineStepsMoveForward : Obligations.EngineStepsMoveForward :=
  fun _ _ h => (engineStep_iff.mp h).2.progress_lt

end Sys2Proof.Proofs
end
